-- ==== Sys2Proof/Word.lean ====
section
/-! DEFINITION. The widths the spec gives: bytes, the 16-bit CRC and error counts, the 64-bit
shift register (00_scope.md R10, 10_state.md R33, R35). -/

namespace Sys2Proof

/-- A byte; bit 7 is the most significant (00_scope.md R10). -/
abbrev Byte := BitVec 8

/-- A 16-bit quantity: CRC16 values and error counts (45_mfm_decoder.md R242, 10_state.md R35). -/
abbrev Half := BitVec 16

/-- `SR_WIDTH`, the width of the decoder's shift register (00_scope.md R9). -/
abbrev Config.srWidth : Nat := 64

/-- The decoder's shift register and the sync constants (10_state.md R33, 30_encoding.md R104). -/
abbrev Sync := BitVec Config.srWidth

end Sys2Proof
end

