-- ==== Sys2Proof/Config.lean ====
section
/-! DEFINITION. The parameters of 00_scope.md R9. A literal the source prints is a named constant; a
parameter without a value is a field of `Params` (a value of the machine that no step writes, so that
a statement about every state is a statement about every value), and what `State.reset` holds there
is the spec's marked suggestion or an opaque constant without a body (notes/assumptions/1 to 3, 15).
Parameters that are functions are opaque constants here (notes/assumptions/12 to 14). -/

namespace Sys2Proof

/-- The 25 diagnostic codes of 60_exceptions.md R300; symbolic, without numbers (R302).
`mediaTypeMismatch` and `ctsFailure` are in the taxonomy and no rule returns them (R303). -/
inductive Code where
  | ok | error | cancelled
  | notFound | inUse | accessDenied | generic | configError
  | sendFailed | sendParameterFailed | readResponseFailed | writeTimeout | framingError
  | serialOverrun | statusError
  | noDiskInDrive | writeProtected | trackRangeError | selectTrackError | rewindFailure
  | mediaTypeMismatch | ctsFailure
  | errorReadingVersion | malformedVersion | oldFirmware
  deriving DecidableEq, Repr, Inhabited

/-- A timeout setting: the deadline of `n` bytes is `base + perByte * n` (40_transport.md R132). -/
structure Timeout where
  base : Nat
  perByte : Nat
  deriving DecidableEq, Repr, Inhabited

/-- The three 64-bit sync constants of the decoder (30_encoding.md R104). -/
structure SyncWords where
  iam : Sync
  idam : Sync
  dam : Sync
  deriving DecidableEq, Repr

/-- The 2-bit precompensation hint of a transition (44_track_write.md R223). -/
inductive Precomp where
  | none | early | late
  deriving DecidableEq, Repr, Inhabited

/-- How a non-HD read may end: with its block complete, with no byte within the deadline, or with a byte
that its framing does not allow. The source gives its codes no list; these are the codes whose cause in
60_exceptions.md R300 a framed read can have (DESIGN CHOICE; notes/assumptions/12). -/
inductive BlockEnd where
  | complete | silent | illegal
  deriving DecidableEq, Repr, Inhabited

/-- The code of each end of a non-HD read (60_exceptions.md R300). -/
def BlockEnd.code : BlockEnd → Code
  | .complete => .ok
  | .silent => .readResponseFailed
  | .illegal => .statusError

/-- What the framing of the non-HD read makes of the bytes received so far: the block is not
complete, or the read ends, with the capture bits it carries (43_streaming_read.md R212). -/
inductive BlockVerdict where
  | more
  | done (e : BlockEnd) (bits : List Bool)
  deriving DecidableEq, Repr, Inhabited

/-- The parameters whose value the source does not give (00_scope.md R9, 93_implementation_defined.md U20). -/
structure Params where
  /-- `SYNC_IAM`, `SYNC_IDAM`, `SYNC_DAM` (30_encoding.md R104). -/
  sync : SyncWords
  /-- `SYNTH_ERR`, the error count of a synthesised header (45_mfm_decoder.md R252). -/
  synthErr : Half
  /-- `SERVE_ERR_LIMIT` (46_device_adapter.md R288). -/
  serveErrLimit : Half
  /-- `RAW_TRACKDATA_LENGTH_DD` in bytes; HD is exactly twice it (20_memory.md R61). -/
  capDD : Nat
  /-- `FDD_NUM`, the number of drive slots (46_device_adapter.md R280); one State is one of them
  (notes/assumptions/18). -/
  fddNum : Nat
  /-- `BAUD` (40_transport.md R131). -/
  baud : Nat
  /-- `CMD_RESET` (41_handshake.md R152). -/
  cmdReset : Byte
  /-- `CMD_ENABLEWRITE` (44_track_write.md R221). -/
  cmdEnableWrite : Byte
  /-- `MIN_FIRMWARE`, major part (41_handshake.md R159). -/
  minMajor : Nat
  /-- `MIN_FIRMWARE`, minor part. -/
  minMinor : Nat
  /-- `FCM_DOT` (41_handshake.md R156). -/
  fcmDot : Bool
  /-- `SYNC_RD_TIMEOUT` (41_handshake.md R151). -/
  syncRd : Timeout
  /-- `SYNC_WR_TIMEOUT`. -/
  syncWr : Timeout
  /-- `NORMAL_RD_TIMEOUT` (41_handshake.md R159). -/
  normalRd : Timeout
  /-- `NORMAL_WR_TIMEOUT`. -/
  normalWr : Timeout
  /-- `SYMBOL_BITS(0)` (30_encoding.md R101). -/
  sym0 : List Bool
  /-- `SYMBOL_BITS(1)`. -/
  sym1 : List Bool
  /-- `SYMBOL_BITS(2)`. -/
  sym2 : List Bool
  /-- `SYMBOL_BITS(3)`. -/
  sym3 : List Bool
  deriving DecidableEq, Repr

/-- `CAP`, the capture capacity in bytes (43_streaming_read.md R200, 20_memory.md R61). -/
def Params.capBytes (p : Params) (hd : Bool) : Nat :=
  if hd then 2 * p.capDD else p.capDD

namespace Config

/-- `TRACK_MAX`. -/
def trackMax : Nat := 83
/-- `MAX_SECTOR`. -/
def maxSector : Nat := 22
/-- `SIZECODE_MAX` (the spec's choice, D11). -/
def sizeCodeMax : Nat := 7
/-- `FILLER_SIZE` (the spec's choice, D14). -/
def fillerSize : Nat := 512
/-- `ERR_SENTINEL`. -/
def errSentinel : Half := 0xFFFF
/-- `GAP_THRESHOLD`, in bytes. -/
def gapThreshold : Nat := 70
/-- `CRC_POLY`. -/
def crcPoly : Half := 0x1021
/-- `CRC_INIT`. -/
def crcInit : Half := 0xFFFF
/-- `SYNC_TIMEOUT`, 8 s in milliseconds. -/
def syncTimeout : Nat := 8000
/-- `SYNC_MAX_BYTES`. -/
def syncMaxBytes : Nat := 2048
/-- `KICK_POLLS` (exact by D17). -/
def kickPolls : Nat := 7
/-- `CMD_PAUSE`, in milliseconds. -/
def cmdPause : Nat := 1
/-- `PURGE_SETTLE`, in milliseconds. -/
def purgeSettle : Nat := 1
/-- `RESET_SETTLE`, in milliseconds. -/
def resetSettle : Nat := 10
/-- `STREAM_CHUNK`. -/
def streamChunk : Nat := 64
/-- `STALL_POLLS`. -/
def stallPolls : Nat := 30
/-- `STREAM_START_TRIES`. -/
def streamStartTries : Nat := 2
/-- `TRACK_READ_TRIES`. -/
def trackReadTries : Nat := 3
/-- `CALIB_DISTANCE`, in tracks. -/
def calibDistance : Nat := 30
/-- `FEATURES_MIN_VERSION`, major part of 1.9. -/
def featuresMajor : Nat := 1
/-- `FEATURES_MIN_VERSION`, minor part of 1.9. -/
def featuresMinor : Nat := 9
/-- Sectors per track of the DD geometry. -/
def sectorsDD : Nat := 9
/-- Sectors per track of the HD geometry. -/
def sectorsHD : Nat := 18
/-- Heads of either geometry. -/
def heads : Nat := 2
/-- Tracks of either geometry. -/
def tracks : Nat := 80

/-- PRESUMED (the spec's G1, from general knowledge): the IBM format's sync constants, "which a model
uses unless told otherwise" (30_encoding.md R104). Unsafe; notes/assumptions/1. -/
def ibmSync : SyncWords :=
  { iam := 0x5224522452245552, idam := 0x4489448944895554, dam := 0x4489448944895545 }

/-- PRESUMED (the spec's G3): the suggested `SYNTH_ERR`. Unsafe; notes/assumptions/3. -/
def suggestedSynthErr : Half := 0xF0

/-- `SYMBOL_BITS(0)` has no suggestion (30_encoding.md R101): a free value. -/
opaque symbolZero : List Bool
/-- `SERVE_ERR_LIMIT` has no value: a free value. -/
opaque serveErrLimit : Half
/-- `RAW_TRACKDATA_LENGTH_DD` has no value: a free value. -/
opaque capDD : Nat
/-- `FDD_NUM` has no value: a free value. -/
opaque fddNum : Nat
/-- `BAUD` has no value: a free value. -/
opaque baud : Nat
/-- `CMD_RESET` has no value: a free value. -/
opaque cmdReset : Byte
/-- `CMD_ENABLEWRITE` has no value: a free value. -/
opaque cmdEnableWrite : Byte
/-- `MIN_FIRMWARE` has no value: a free value. -/
opaque minFirmware : Nat × Nat
/-- `FCM_DOT` has no value: a free value. -/
opaque fcmDot : Bool
/-- `SYNC_RD_TIMEOUT` has no value: a free value. -/
opaque syncRd : Timeout
/-- `SYNC_WR_TIMEOUT` has no value: a free value. -/
opaque syncWr : Timeout
/-- `NORMAL_RD_TIMEOUT` has no value: a free value. -/
opaque normalRd : Timeout
/-- `NORMAL_WR_TIMEOUT` has no value: a free value. -/
opaque normalWr : Timeout

/-- The parameters a machine has at reset: the spec's marked suggestions where it gives one, else an
opaque constant (notes/assumptions/2). -/
def params : Params :=
  { sync := ibmSync, synthErr := suggestedSynthErr, serveErrLimit := serveErrLimit
    capDD := capDD, fddNum := fddNum, baud := baud, cmdReset := cmdReset, cmdEnableWrite := cmdEnableWrite
    minMajor := minFirmware.1, minMinor := minFirmware.2, fcmDot := fcmDot
    syncRd := syncRd, syncWr := syncWr, normalRd := normalRd, normalWr := normalWr
    -- PRESUMED (the spec's G7): the suggested SYMBOL_BITS 1 gives 01, 2 gives 001, 3 gives 0001.
    sym0 := symbolZero, sym1 := [false, true], sym2 := [false, false, true]
    sym3 := [false, false, false, true] }

/-- The framing of the non-HD read (43_streaming_read.md R212), taken as a parameter: what the bytes
received since the command byte, and the number of empty polls since the last of them, amount to.
It covers a length prefix of any width, a terminator, a status byte, packed symbols and raw bytes
alike. Free; notes/assumptions/12. -/
opaque blockVerdict : List Byte → Nat → BlockVerdict

/-- The layout of the write path's transition byte (30_encoding.md R102): a code for a run (none for
the first transition) and a hint. The byte is the code plus one, so it is never 0x00. Free;
notes/assumptions/14. -/
opaque transitionCode : Option Nat → Precomp → Fin 255

/-- The payload of the plain write `>` for the MFM bits, which no source describes
(93_implementation_defined.md U21). Free; notes/assumptions/13. -/
opaque plainPayload : List Bool → List Byte

/-- Bit `i` of a buffer that has no such bit: its bytes, its bit length and the bit asked for. No rule
states it (45_mfm_decoder.md R264 (h), 44_track_write.md R220). Free; notes/assumptions/28 and 38. -/
opaque bitBeyond : List Byte → Nat → Nat → Bool

/-- The length prefix of a non-HD write payload: width, order and unit are open
(44_track_write.md R224). Free; notes/assumptions/14. -/
opaque lengthPrefix : List Byte → List Byte

end Config

/-- The constraints 00_scope.md R9 and 30_encoding.md R104 put on the parameters: `5 < SYNTH_ERR <
0xFFFE`, `SERVE_ERR_LIMIT < ERR_SENTINEL`, the sync constants pairwise different. -/
def Params.ok (p : Params) : Bool :=
  decide (5 < p.synthErr.toNat) && decide (p.synthErr.toNat + 1 < Config.errSentinel.toNat)
    && decide (p.serveErrLimit < Config.errSentinel)
    && (p.sync.iam != p.sync.idam) && (p.sync.iam != p.sync.dam) && (p.sync.idam != p.sync.dam)

end Sys2Proof
end

