-- ==== Sys2Proof/Syntax.lean ====
section
/-! DEFINITION. The instructions of the block: one constructor per row of spec/opcode_table.json
(30_encoding.md R90, R111): 17 wire commands, 21 response values by context, the abort echo, the
version reply, the stream data byte and the three sync constants. -/

namespace Sys2Proof

/-- One constructor per row of the opcode table. A command's operands are those of the engine
operation it belongs to; a catch-all response carries the byte that no other row of its format names. -/
inductive Instr where
  -- wire commands, engine to device (30_encoding.md R92)
  /-- `?`, the version query (41_handshake.md R152, R154). -/
  | version
  /-- `.` (42_commands.md R174). -/
  | rewind
  /-- `#` and two decimal digits (42_commands.md R176). -/
  | gotoTrack (n : Nat)
  /-- `[` (42_commands.md R178). -/
  | head0
  /-- `]` (42_commands.md R178). -/
  | head1
  /-- `<`, the non-HD read (43_streaming_read.md R212). -/
  | readTrack
  /-- `{`, the streamed read (43_streaming_read.md R200). -/
  | readStream
  /-- `+` (42_commands.md R180). -/
  | enable
  /-- `-` (42_commands.md R181). -/
  | disable
  /-- `>`, the plain write (44_track_write.md R220). -/
  | writeTrack
  /-- `}`, the precompensated write (44_track_write.md R220). -/
  | writePrecomp
  /-- `&` (42_commands.md R186). -/
  | diagnostics
  /-- `T` (42_commands.md R184). -/
  | density
  /-- `^` (42_commands.md R182). -/
  | checkDisk
  /-- `$` (42_commands.md R183). -/
  | checkWp
  /-- `@` (41_handshake.md R158). -/
  | features
  /-- `x` (43_streaming_read.md R205). -/
  | abort
  -- responses of the command/response primitive (42_commands.md R170)
  | rsp1Ok
  | rsp1Error
  | rsp1Other (b : Byte)
  -- responses of track selection (42_commands.md R176)
  | rsptMoved
  | rsptAlready
  | rsptFail
  | rsptOther (b : Byte)
  -- check disk, presence byte (42_commands.md R182)
  | rsp2NoDisk
  | rsp2Present
  | rsp2B0Other (b : Byte)
  -- check disk, write-protect byte (42_commands.md R182, R183)
  | rsp2Prot1
  | rsp2ProtHash
  | rsp2B1Other (b : Byte)
  -- the density byte (42_commands.md R184)
  | densHd
  | densDd
  | densOther (b : Byte)
  -- final status of a track write (44_track_write.md R226)
  | rspwClean
  | rspwTimeout
  | rspwFraming
  | rspwOverrun
  | rspwOther (b : Byte)
  /-- The five-byte echo that ends a stream (43_streaming_read.md R206). -/
  | abortEcho
  /-- The five-byte version reply (41_handshake.md R153, R156): digits, and whether the separator is `.`. -/
  | versionReply (major : BitVec 4) (dot : Bool) (minor : BitVec 4)
  /-- One data byte of a stream (43_streaming_read.md R203). -/
  | streamData (b : Byte)
  -- sync constants found in the capture (45_mfm_decoder.md R245, R246, R251)
  | syncIam
  | syncIdam
  | syncDam
  deriving DecidableEq, Repr

end Sys2Proof
end

