-- ==== Sys2Proof/WellFormed.lean ====
section
/-! DEFINITION. Which operands an instruction's encoding admits (30_encoding.md R95, R96, R97). -/

namespace Sys2Proof

/-- The operands a row of the opcode table admits: a track number of 0 to 83 (30_encoding.md R96), a
major digit of 1 to 9 and a minor digit of 0 to 9 (R97), and for a catch-all response a byte that no
other row of its format names (R95, R111). -/
def Instr.wf : Instr → Bool
  | .gotoTrack n => decide (n ≤ Config.trackMax)
  | .rsp1Other b => b != 0x31 && b != 0x30
  | .rsptOther b => b != 0x31 && b != 0x32 && b != 0x30
  | .rsp2B0Other b => b != 0x23 && b != 0x31
  | .rsp2B1Other b => b != 0x31 && b != 0x23
  | .densOther b => b != 0x48 && b != 0x44
  | .rspwOther b => b != 0x31 && b != 0x58 && b != 0x59 && b != 0x5A
  | .versionReply major _ minor => decide (1 ≤ major.toNat) && decide (major.toNat ≤ 9) && decide (minor.toNat ≤ 9)
  | .version | .rewind | .head0 | .head1 | .readTrack | .readStream | .enable | .disable
  | .writeTrack | .writePrecomp | .diagnostics | .density | .checkDisk | .checkWp | .features
  | .abort | .rsp1Ok | .rsp1Error | .rsptMoved | .rsptAlready | .rsptFail | .rsp2NoDisk
  | .rsp2Present | .rsp2Prot1 | .rsp2ProtHash | .densHd | .densDd | .rspwClean | .rspwTimeout
  | .rspwFraming | .rspwOverrun | .abortEcho | .streamData _ | .syncIam | .syncIdam | .syncDam => true

end Sys2Proof
end

