-- ==== Sys2Proof/Decode.lean ====
section
/-! DEFINITION. The decoder of every context in which the block reads an instruction, and the encoder
(30_encoding.md). A byte has a meaning only in a context: the same 0x31 answers five different
exchanges (R95), so `decode` takes the context the engine is in. Bits laid out as
spec/opcode_table.json numbers them are read by `decodeTableWord` (notes/assumptions/10). -/

namespace Sys2Proof

/-! ### The command alphabet (30_encoding.md R92) -/

def Cmd.version : Byte := 0x3F
def Cmd.rewind : Byte := 0x2E
def Cmd.gotoTrack : Byte := 0x23
def Cmd.head0 : Byte := 0x5B
def Cmd.head1 : Byte := 0x5D
def Cmd.readTrack : Byte := 0x3C
def Cmd.readStream : Byte := 0x7B
def Cmd.enable : Byte := 0x2B
def Cmd.disable : Byte := 0x2D
def Cmd.writeTrack : Byte := 0x3E
def Cmd.writePrecomp : Byte := 0x7D
def Cmd.diagnostics : Byte := 0x26
def Cmd.density : Byte := 0x54
def Cmd.checkDisk : Byte := 0x5E
def Cmd.checkWp : Byte := 0x24
def Cmd.features : Byte := 0x40
def Cmd.abort : Byte := 0x78

/-- The fixed single-character command alphabet, in the table's order (30_encoding.md R92). -/
def Cmd.alphabet : List Byte :=
  [Cmd.version, Cmd.rewind, Cmd.gotoTrack, Cmd.head0, Cmd.head1, Cmd.readTrack, Cmd.readStream,
   Cmd.enable, Cmd.disable, Cmd.writeTrack, Cmd.writePrecomp, Cmd.diagnostics, Cmd.density,
   Cmd.checkDisk, Cmd.checkWp, Cmd.features, Cmd.abort]

/-! ### Contexts and outcomes -/

/-- Where the bits of an instruction stand, which decides how they are read. -/
inductive Ctx where
  /-- A wire command about to be written (30_encoding.md R91). -/
  | command
  /-- The response byte of the command/response primitive. -/
  | rsp1
  /-- The response byte of track selection. -/
  | rspT
  /-- The first response byte of check disk. -/
  | presence
  /-- The second response byte of check disk, and the one byte of check write protection. -/
  | protect
  /-- The second response byte of the density check. -/
  | density
  /-- The final status byte of a track write. -/
  | rspW
  /-- A byte of a stream before the abort byte was sent. -/
  | stream
  /-- The five-byte window after the abort byte was sent. -/
  | echo
  /-- The five-byte window of the handshake. -/
  | version
  /-- The 64-bit window of the decoder's scan, as eight bytes, earliest first. -/
  | scan
  deriving DecidableEq, Repr

/-- Why bits are no instruction of their context. -/
inductive Reject where
  /-- The number of bytes is not that of any instruction of the context. -/
  | length
  /-- The byte is not in the command alphabet (30_encoding.md R99). -/
  | notACommand (b : Byte)
  /-- The two bytes after `#` are not two ASCII digits (30_encoding.md R96). -/
  | trackDigits
  /-- The two digits after `#` are above 83: never encoded (30_encoding.md R96). -/
  | trackRange
  /-- The window is not the abort echo (43_streaming_read.md R206). -/
  | notEcho
  /-- The window is not a version reply (41_handshake.md R153). -/
  | notVersion
  /-- The window is none of the three sync constants (45_mfm_decoder.md R241). -/
  | notSync
  deriving DecidableEq, Repr

/-- What decoding answers: an instruction, or a rejection by name. -/
inductive Decoded where
  | instr (i : Instr)
  | reject (r : Reject)
  deriving DecidableEq, Repr

/-- The instruction, if there is one. -/
def Decoded.toOption : Decoded → Option Instr
  | .instr i => some i
  | .reject _ => none

/-! ### ASCII digits (30_encoding.md R96, R97) -/

/-- Whether a byte is an ASCII digit `'0'` to `'9'`. -/
def isDigit (b : Byte) : Bool := decide (0x30 ≤ b.toNat) && decide (b.toNat ≤ 0x39)

/-- The value of an ASCII digit. -/
def digitValue (b : Byte) : Nat := b.toNat - 0x30

/-- The ASCII digit of a value below 10. -/
def digitByte (n : Nat) : Byte := BitVec.ofNat 8 (0x30 + n)

/-! ### Decoding, context by context -/

/-- The command a one-byte command names; `#` is not one of them, having three bytes. -/
def decodeCommand (b : Byte) : Decoded :=
  if b = Cmd.version then .instr .version
  else if b = Cmd.rewind then .instr .rewind
  else if b = Cmd.head0 then .instr .head0
  else if b = Cmd.head1 then .instr .head1
  else if b = Cmd.readTrack then .instr .readTrack
  else if b = Cmd.readStream then .instr .readStream
  else if b = Cmd.enable then .instr .enable
  else if b = Cmd.disable then .instr .disable
  else if b = Cmd.writeTrack then .instr .writeTrack
  else if b = Cmd.writePrecomp then .instr .writePrecomp
  else if b = Cmd.diagnostics then .instr .diagnostics
  else if b = Cmd.density then .instr .density
  else if b = Cmd.checkDisk then .instr .checkDisk
  else if b = Cmd.checkWp then .instr .checkWp
  else if b = Cmd.features then .instr .features
  else if b = Cmd.abort then .instr .abort
  else if b = Cmd.gotoTrack then .reject .length
  else .reject (.notACommand b)

/-- The track command `#`, tens digit, units digit (30_encoding.md R96). -/
def decodeTrack (tens units : Byte) : Decoded :=
  if isDigit tens && isDigit units then
    if 10 * digitValue tens + digitValue units ≤ Config.trackMax then
      .instr (.gotoTrack (10 * digitValue tens + digitValue units))
    else .reject .trackRange
  else .reject .trackDigits

/-- A response of the command/response primitive (42_commands.md R170). -/
def decodeRsp1 (b : Byte) : Instr :=
  if b = 0x31 then .rsp1Ok else if b = 0x30 then .rsp1Error else .rsp1Other b

/-- A response of track selection (42_commands.md R176). -/
def decodeRspT (b : Byte) : Instr :=
  if b = 0x31 then .rsptMoved
  else if b = 0x32 then .rsptAlready
  else if b = 0x30 then .rsptFail
  else .rsptOther b

/-- The presence byte of check disk (42_commands.md R182). -/
def decodePresence (b : Byte) : Instr :=
  if b = 0x23 then .rsp2NoDisk else if b = 0x31 then .rsp2Present else .rsp2B0Other b

/-- The write-protect byte (42_commands.md R182, R183). -/
def decodeProtect (b : Byte) : Instr :=
  if b = 0x31 then .rsp2Prot1 else if b = 0x23 then .rsp2ProtHash else .rsp2B1Other b

/-- The density byte (42_commands.md R184). -/
def decodeDensity (b : Byte) : Instr :=
  if b = 0x48 then .densHd else if b = 0x44 then .densDd else .densOther b

/-- The final status byte of a track write (44_track_write.md R226). -/
def decodeRspW (b : Byte) : Instr :=
  if b = 0x31 then .rspwClean
  else if b = 0x58 then .rspwTimeout
  else if b = 0x59 then .rspwFraming
  else if b = 0x5A then .rspwOverrun
  else .rspwOther b

/-- The abort echo `X Y Z x 1` (43_streaming_read.md R206). -/
def decodeEcho (w : List Byte) : Decoded :=
  if w = [0x58, 0x59, 0x5A, 0x78, 0x31] then .instr .abortEcho else .reject .notEcho

/-- `Match(w)` of 41_handshake.md R153, and the version operand of 30_encoding.md R97. -/
def decodeVersion (w : List Byte) : Decoded :=
  match w with
  | [a, v, major, sep, minor] =>
    if a = 0x31 ∧ v = 0x56 ∧ 0x31 ≤ major.toNat ∧ major.toNat ≤ 0x39 ∧ (sep = 0x2C ∨ sep = 0x2E)
        ∧ isDigit minor = true then
      .instr (.versionReply (BitVec.ofNat 4 (digitValue major)) (sep == 0x2E)
        (BitVec.ofNat 4 (digitValue minor)))
    else .reject .notVersion
  | _ => .reject .notVersion

/-- The comparison of the shift register with the three constants (45_mfm_decoder.md R240, R241). -/
def decodeWindow (k : SyncWords) (w : Sync) : Decoded :=
  if w = k.iam then .instr .syncIam
  else if w = k.idam then .instr .syncIdam
  else if w = k.dam then .instr .syncDam
  else .reject .notSync

/-- Bytes as one number, the first byte in the most significant position (30_encoding.md R111). -/
def joinBytes (bs : List Byte) : Nat := bs.foldl (fun acc b => acc * 256 + b.toNat) 0

/-- The `n` bytes of a number, the most significant first. -/
def splitBytes : Nat → Nat → List Byte
  | 0, _ => []
  | n + 1, w => BitVec.ofNat 8 (w / 256 ^ n) :: splitBytes n w

/-- The instruction that bytes stand for in a context, total: the catch-all rows make every response
byte an instruction (30_encoding.md R99), every other context rejects by name. -/
def decode (k : SyncWords) (c : Ctx) (bs : List Byte) : Decoded :=
  match c, bs with
  | .command, [b] => decodeCommand b
  | .command, [b, tens, units] => if b = Cmd.gotoTrack then decodeTrack tens units else .reject .length
  | .rsp1, [b] => .instr (decodeRsp1 b)
  | .rspT, [b] => .instr (decodeRspT b)
  | .presence, [b] => .instr (decodePresence b)
  | .protect, [b] => .instr (decodeProtect b)
  | .density, [b] => .instr (decodeDensity b)
  | .rspW, [b] => .instr (decodeRspW b)
  | .stream, [b] => .instr (.streamData b)
  | .echo, bs => decodeEcho bs
  | .version, bs => decodeVersion bs
  | .scan, [a, b, c, d, e, f, g, h] =>
    decodeWindow k (BitVec.ofNat Config.srWidth (joinBytes [a, b, c, d, e, f, g, h]))
  | _, _ => .reject .length

/-! ### Encoding -/

/-- The context in which a row's bits stand (the row's format in spec/opcode_table.json). -/
def Instr.ctx : Instr → Ctx
  | .version | .rewind | .gotoTrack _ | .head0 | .head1 | .readTrack | .readStream | .enable
  | .disable | .writeTrack | .writePrecomp | .diagnostics | .density | .checkDisk | .checkWp
  | .features | .abort => .command
  | .rsp1Ok | .rsp1Error | .rsp1Other _ => .rsp1
  | .rsptMoved | .rsptAlready | .rsptFail | .rsptOther _ => .rspT
  | .rsp2NoDisk | .rsp2Present | .rsp2B0Other _ => .presence
  | .rsp2Prot1 | .rsp2ProtHash | .rsp2B1Other _ => .protect
  | .densHd | .densDd | .densOther _ => .density
  | .rspwClean | .rspwTimeout | .rspwFraming | .rspwOverrun | .rspwOther _ => .rspW
  | .abortEcho => .echo
  | .versionReply _ _ _ => .version
  | .streamData _ => .stream
  | .syncIam | .syncIdam | .syncDam => .scan

/-- The three bytes of the track command (30_encoding.md R96). -/
def encodeTrack (n : Nat) : List Byte := [Cmd.gotoTrack, digitByte (n / 10), digitByte (n % 10)]

/-- The bytes of an instruction in its context (30_encoding.md R91 to R97, R104; 43_streaming_read.md R206). -/
def encode (k : SyncWords) : Instr → List Byte
  | .version => [Cmd.version]
  | .rewind => [Cmd.rewind]
  | .gotoTrack n => encodeTrack n
  | .head0 => [Cmd.head0]
  | .head1 => [Cmd.head1]
  | .readTrack => [Cmd.readTrack]
  | .readStream => [Cmd.readStream]
  | .enable => [Cmd.enable]
  | .disable => [Cmd.disable]
  | .writeTrack => [Cmd.writeTrack]
  | .writePrecomp => [Cmd.writePrecomp]
  | .diagnostics => [Cmd.diagnostics]
  | .density => [Cmd.density]
  | .checkDisk => [Cmd.checkDisk]
  | .checkWp => [Cmd.checkWp]
  | .features => [Cmd.features]
  | .abort => [Cmd.abort]
  | .rsp1Ok => [0x31]
  | .rsp1Error => [0x30]
  | .rsp1Other b => [b]
  | .rsptMoved => [0x31]
  | .rsptAlready => [0x32]
  | .rsptFail => [0x30]
  | .rsptOther b => [b]
  | .rsp2NoDisk => [0x23]
  | .rsp2Present => [0x31]
  | .rsp2B0Other b => [b]
  | .rsp2Prot1 => [0x31]
  | .rsp2ProtHash => [0x23]
  | .rsp2B1Other b => [b]
  | .densHd => [0x48]
  | .densDd => [0x44]
  | .densOther b => [b]
  | .rspwClean => [0x31]
  | .rspwTimeout => [0x58]
  | .rspwFraming => [0x59]
  | .rspwOverrun => [0x5A]
  | .rspwOther b => [b]
  | .abortEcho => [0x58, 0x59, 0x5A, 0x78, 0x31]
  | .versionReply major dot minor =>
    [0x31, 0x56, digitByte major.toNat, if dot then 0x2E else 0x2C, digitByte minor.toNat]
  | .streamData b => [b]
  | .syncIam => splitBytes 8 k.iam.toNat
  | .syncIdam => splitBytes 8 k.idam.toNat
  | .syncDam => splitBytes 8 k.dam.toNat

/-! ### The opcode table's own words -/

/-- Whether a row has no fixed bits: the catch-all of its format, or the stream data byte. -/
def Instr.catchAll : Instr → Bool
  | .rsp1Other _ | .rsptOther _ | .rsp2B0Other _ | .rsp2B1Other _ | .densOther _ | .rspwOther _
  | .streamData _ => true
  | _ => false

/-- The bytes of a one-byte row laid out in a context: the track command's two digit fields, which the
table gives no bits, are zero digits (30_encoding.md R96). -/
def tableLayout (c : Ctx) (b : Byte) : List Byte :=
  if c = .command ∧ b = Cmd.gotoTrack then [b, digitByte 0, digitByte 0] else [b]

/-- What `decode` reads from one byte, tried in the contexts of the table's order; the first row with
fixed bits, else the first catch-all (notes/assumptions/10). -/
def decodeTableByte (k : SyncWords) (b : Byte) : List Ctx → Instr
  | [] => .rsp1Other b
  | c :: rest =>
    match decode k c (tableLayout c b) with
    | .instr i => if i.catchAll then decodeTableByte k b rest else i
    | .reject _ => decodeTableByte k b rest

/-- The contexts of the table's one-byte rows, in the table's order. -/
def tableContexts : List Ctx := [.command, .rsp1, .rspT, .presence, .protect, .density, .rspW]

/-- The instruction whose bits, numbered as spec/opcode_table.json numbers them, are `w`: a row of one
byte by `decodeTableByte`; a row of several with the first byte in the most significant position
(30_encoding.md R111), each laid out and given to `decode` in its context. -/
def decodeTableWord (nbits w : Nat) : Option Instr :=
  if 2 ^ nbits ≤ w then none
  else if nbits = 8 then some (decodeTableByte Config.ibmSync (BitVec.ofNat 8 w) tableContexts)
  else if nbits = 24 then (decode Config.ibmSync .command (splitBytes 3 w)).toOption
  else if nbits = 40 then
    match decode Config.ibmSync .echo (splitBytes 5 w) with
    | .instr i => some i
    | .reject _ => (decode Config.ibmSync .version (splitBytes 5 w)).toOption
  else if nbits = Config.srWidth then (decode Config.ibmSync .scan (splitBytes 8 w)).toOption
  else none

end Sys2Proof
end

