-- ==== Sys2Proof/Machine/State.lean ====
section
/-! DEFINITION. The machine's state as plain data, holding every piece of state of 10_state.md and
20_memory.md, the model's own control registers, and the state after reset
(70_reset_and_hazards.md R340). -/

namespace Sys2Proof.Machine

/-! ### The capture: byte memory in one canonical form -/

/-- Bytes by index, in one canonical form: indices strictly rising, no entry equal to what an unlisted
index reads as. -/
abbrev Memory := List Host.Cell

/-- What an index that is not listed reads as. DESIGN CHOICE, unsafe: zero ("a new capture of CAP bytes,
all 0", 46_device_adapter.md R284; elsewhere unspecified, 70 R340); notes/assumptions/5. -/
def Memory.unlisted : Byte := 0

/-- The canonical form. -/
def Memory.wf : Memory → Bool
  | [] => true
  | [(_, v)] => v != Memory.unlisted
  | (a, v) :: (b, w) :: rest =>
    decide (a < b) && (v != Memory.unlisted) && Memory.wf ((b, w) :: rest)

/-- A bit cursor: a byte index and the number of bits of that byte already passed, counted from the
most significant (45_mfm_decoder.md R236). -/
structure Cursor where
  pos : Nat
  bit : Nat
  deriving DecidableEq, Repr

/-- A Raw Track Capture: its bytes, its capacity in bytes and its number of valid bits (20_memory.md R61). -/
structure Capture where
  buf : Memory
  size : Nat
  bitLength : Nat
  deriving DecidableEq, Repr

/-! ### Protocol Session (10_state.md section 2) -/

/-- The engine state register `st` (10_state.md R22). -/
inductive EngineState where
  | closed | syncing | ready | readEnabled | writeEnabled | streaming
  deriving DecidableEq, Repr

/-- The mode, a function of `st` (10_state.md R23). -/
inductive Mode where
  | idle | readEnabled | writeEnabled | streaming
  deriving DecidableEq, Repr

/-- `firmwareVersion` (10_state.md R24). -/
structure Firmware where
  major : BitVec 4
  minor : BitVec 4
  fullControlMod : Bool
  deviceFlags1 : Byte
  deviceFlags2 : Byte
  buildNumber : Byte
  deriving DecidableEq, Repr, Inhabited

/-! ### Transport Session (10_state.md section 3, 40_transport.md) -/

/-- A line configuration of the serial port: one found at open, opaque to the block, or the one
`configure` sets, raw 8N1 at a baud rate with or without hardware flow control (40_transport.md R131). -/
inductive Line where
  | found (token : Nat)
  | raw8N1 (baud : Nat) (ctsFlow : Bool)
  deriving DecidableEq, Repr, Inhabited

/-- The failures of `open` (40_transport.md R130). -/
inductive PortError where
  | notFound | inUse | accessDenied | other
  deriving DecidableEq, Repr, Inhabited

/-- The Transport Session registers (10_state.md R29); meaningful while `isOpen`, but for `line`, the
port's own configuration, which outlives the session (40_transport.md R137). -/
structure Transport where
  isOpen : Bool
  path : String
  saved : Line
  line : Line
  rdTimeout : Timeout
  wrTimeout : Timeout
  dtr : Bool
  rts : Bool
  cts : Bool
  rx : List Byte
  tx : List Byte
  deriving DecidableEq, Repr

/-! ### Engine working registers (10_state.md section 4) -/

/-- A five-byte sliding window, `b0` oldest, `b4` newest (10_state.md R30, R31). -/
structure Window where
  b0 : Byte
  b1 : Byte
  b2 : Byte
  b3 : Byte
  b4 : Byte
  deriving DecidableEq, Repr

/-- The handshake registers (10_state.md R30) and the operands of `openPort` (41_handshake.md R151). -/
structure Handshake where
  vwin : Window
  nSeen : Nat
  nEmpty : Nat
  t0 : Nat
  path : String
  ctsFlow : Bool
  triggerReset : Bool
  deriving DecidableEq, Repr

/-- The streaming registers (10_state.md R31) and the attempt count of the stream start
(43_streaming_read.md R200): those whose code has come back. -/
structure Stream where
  awin : Window
  nStall : Nat
  abortSent : Bool
  userAbort : Bool
  wcur : Cursor
  chunk : List Byte
  startTries : Nat
  deriving DecidableEq, Repr

/-- The operands of `writeTrack` (44_track_write.md R220). -/
structure WriteBuf where
  mfm : List Byte
  nbits : Nat
  deriving DecidableEq, Repr

/-- The non-HD read in progress: the block's bytes so far and the empty polls since the last
(43_streaming_read.md R212; notes/assumptions/12). -/
structure Block where
  got : List Byte
  empty : Nat
  deriving DecidableEq, Repr

/-! ### Decoder registers and outputs (10_state.md section 5) -/

/-- A latched header `(C, H, R, N)`; naturals, since a synthesised header copies the operands and
counts past 255 (45_mfm_decoder.md R252, R264). -/
structure Header where
  c : Nat
  h : Nat
  r : Nat
  n : Nat
  deriving DecidableEq, Repr

/-- A DecodedSector (20_memory.md R68). -/
structure Sector where
  bytes : List Byte
  errorCount : Half
  deriving DecidableEq, Repr

/-- A Decoded Track: a finite map by key, keys strictly rising (20_memory.md R68). -/
abbrev Track := List (Nat × Sector)

/-- The decoder's operands, registers (10_state.md R33) and outputs (R34). -/
structure Decoder where
  isHD : Bool
  cylinder : Nat
  head : Nat
  expected : Nat
  sr : Sync
  t : Nat
  headerFound : Bool
  hdr : Header
  hdrErr : Half
  lastSector : Nat
  prevEnd : Option Nat
  gapTotal : Nat
  numGaps : Nat
  trk : Track
  nonstandardTimings : Bool
  sectorsWithErrors : Nat
  deriving DecidableEq, Repr

/-! ### Device Adapter (10_state.md R40, 46_device_adapter.md R280) -/

/-- The selection `setSector` latches (46_device_adapter.md R287). -/
structure Selection where
  head : Nat
  cyl : Nat
  sector : Nat
  size : Nat
  deriving DecidableEq, Repr, Inhabited

/-- A Decoded Track cached for a track and a head. -/
structure CacheEntry where
  track : Nat
  head : Nat
  trk : Track
  deriving DecidableEq, Repr

/-- The adapter's state of one drive slot. -/
structure Adapter where
  attached : Bool
  curTrack : Nat
  cache : List CacheEntry
  sel : Selection
  deriving DecidableEq, Repr

/-- What a boundary operation hands to its caller; the bit positions of the flag masks are not in the
source, so their meaning stands here (46_device_adapter.md R291; notes/assumptions/25). -/
inductive Out where
  | none
  | bit (x : Bool) (cur : Cursor)
  | buffer (bs : List Byte) (cur : Cursor)
  | bytes (bs : List Byte)
  | crc (v : Half)
  | byte (b : Byte)
  | bool (x : Bool)
  | flags (doubleSided : Bool) (mfm : Bool) (highRate : Bool)
  deriving DecidableEq, Repr

/-! ### The environment (00_scope.md R16, R17) -/

/-- The answer of `open` (40_transport.md R130): the line configuration and the modem levels found, or
an error. -/
inductive OpenAnswer where
  | opened (line : Line) (dtr rts : Bool)
  | failed (e : PortError)
  deriving DecidableEq, Repr, Inhabited

/-- The values a session creation draws for the registers whose reset value is unspecified
(70_reset_and_hazards.md R340). -/
structure Draw where
  fw : Firmware
  diskPresent : Bool
  writeProtected : Bool
  isHDMode : Bool
  curTrack : Nat
  sel : Selection
  deriving DecidableEq, Repr, Inhabited

/-- All the environment does in one step of the machine (00_scope.md R16, R17): the time that passes
before the engine acts, the bytes the device sends and takes, the CTS level, the last write of the
canceller (true) or the watchdog (false) to `abortRequested`, and the answers of the Transport call
the step may make: the result of open and of configure, a limit on the bytes a write accepts, a limit
on the bytes a read returns (D38), and how long a call that comes up full takes. -/
structure Move where
  dt : Nat
  arrive : List Byte
  drain : Nat
  cts : Option Bool
  abort : Option Bool
  openAnswer : OpenAnswer
  configOk : Bool
  accept : Option Nat
  take : Option Nat
  busy : Nat
  draw : Draw
  deriving DecidableEq, Repr, Inhabited

/-- What the environment does once the moves of a list have been made: the same moves over and over (none
of them: nothing at all), or from the `n`-th move on a behaviour that nothing constrains. So an
environment that never stops, a device that sends for ever among them, is an environment of the model
(00_scope.md R16, 43_streaming_read.md R211; notes/assumptions/6). -/
inductive Beyond where
  | again (ms : List Move)
  | free (n : Nat)
  deriving DecidableEq, Repr

end Sys2Proof.Machine

namespace Sys2Proof.Config

/-- The moves of an environment that nothing constrains, one by one: a free value. -/
opaque freeMove : Nat → Machine.Move

end Sys2Proof.Config

namespace Sys2Proof.Machine

/-! ### Operations and control -/

/-- The operations of the worker, the adapter's among them (30_encoding.md R90, R110;
46_device_adapter.md). -/
inductive Op where
  | openPort (path : String) (ctsFlow triggerReset : Bool)
  | closePort
  | runCommand (c : Byte) (p : Option Byte)
  | rewind
  | selectTrack (n : Nat)
  | selectSurface (h : Nat)
  | enableReading (on : Bool)
  | enableWriting
  | checkDisk (force : Bool)
  | checkWriteProtect
  | checkDensity
  | diagnostics
  | readTrack
  /-- Which of `}` (`precomp`) and `>` is sent is the caller's operand (DESIGN CHOICE;
  notes/assumptions/13). -/
  | writeTrack (precomp : Bool) (mfm : List Byte) (nbits : Nat)
  | loadCapture (raw : List Byte) (bitLength : Nat)
  | decode (isHD : Bool) (cylinder head expected : Nat)
  | readBit (buf : List Byte) (cur : Cursor)
  | writeBit (buf : List Byte) (cur : Cursor) (x : Bool)
  | extract (s n : Nat)
  | crc16 (bytes : List Byte)
  | attach (path : String) (ctsFlow triggerReset : Bool)
  | detach
  | seek (track : Nat)
  | setSector (side cylinder head sector sizeCode : Nat)
  | readByte (head offset : Nat)
  | writeByte
  | writeback
  | formatSupported
  | writeprot
  | diskFlags
  | sideFlags
  deriving DecidableEq, Repr

/-- What the presence byte of check disk said (42_commands.md R182). -/
inductive Presence where
  | absent | present | other
  deriving DecidableEq, Repr

/-- The response byte the engine waits for. -/
inductive Await where
  | rsp1
  | rspT
  | diskPresence
  | diskProtect (first : Presence)
  | wpByte
  | density
  | rspW
  deriving DecidableEq, Repr

/-- The steps of the handshake (41_handshake.md R151 to R160), one for each call and each register update.
`byte` and `features` hold what the read before them returned; `shift`, `minor`, `control`, `flags2` and
`build` hold the values of the assignments that are still to come. -/
inductive HsStep where
  | open | configure | drop | syncRd | syncWr | enter | greet | hello
  | zeroWindow | zeroSeen | zeroEmpty | clock
  | top | poll | byte (bs : List Byte) | shift (b : Byte) | look | kicked
  | minor (m : BitVec 4) (dot : Bool) | control (dot : Bool)
  | purge1 | settle | purge2 | query | featBytes | features (fs : List Byte)
  | flags2 (f2 build : Byte) | build (b : Byte) | check
  | normalRd | normalWr | ready
  | dtrLow | rtsLow | settleLow | dtrHigh | rtsHigh | settleHigh
  | close (c : Code) | closed (c : Code)
  deriving DecidableEq, Repr

/-- The steps of the streamed read (43_streaming_read.md R200 to R208), one for each call and each register
update. `chunk` holds what the poll returned, `byte` the byte of the chunk that is looked at, `symbols`
and `advance` the capture bits of a data byte that are still to be written. -/
inductive StreamStep where
  | enter | initWindow | initStall | initSent | initUser | initCursor
  | top | poll | chunk (bs : List Byte) | got | bytes | byte (b : Byte) | echo
  | symbols (xs : List Bool) | advance (xs : List Bool)
  | aborted | user
  | leaveFlag | leaveState
  | stalled | stalledState
  deriving DecidableEq, Repr

/-- Where in an operation's pseudocode the engine stands (00_scope.md R18; notes/assumptions/19). -/
inductive Phase where
  /-- No operation in flight. -/
  | idle
  /-- The pause before the wire command whose bytes these are (42_commands.md R170). -/
  | pause (w : List Byte)
  /-- `lastCommand` is about to be set for these bytes (60_exceptions.md R305). -/
  | mark (w : List Byte)
  /-- The wire command whose bytes these are is about to be written. -/
  | issue (w : List Byte)
  /-- The pause before a command byte that is given by a call. -/
  | pauseRaw (c : Byte) (p : Option Byte)
  /-- `lastCommand` is about to be set for that byte. -/
  | markRaw (c : Byte) (p : Option Byte)
  /-- A command byte of `runCommand` given by the worker, or of an operation without a row, is about to
  be written; then its parameter byte, if one is given. -/
  | raw (c : Byte) (p : Option Byte)
  /-- The parameter byte is about to be written. -/
  | param (p : Byte)
  /-- The engine reads a response byte. -/
  | await (a : Await)
  /-- The read has returned these bytes, one or none, and the engine judges them. -/
  | judge (a : Await) (bs : List Byte)
  /-- `writeProtected` is about to be set, and then this code returned (42_commands.md R182). -/
  | protect (prot : Bool) (c : Code)
  /-- The capture's `bitLength` is about to be set, and then this code returned (43_streaming_read.md R200,
  R212). -/
  | length (n : Nat) (c : Code)
  /-- An operation is about to return this code, which the steps before have settled. -/
  | exit (c : Code)
  /-- An operation has returned this code to its caller. -/
  | ret (c : Code)
  /-- Inside `openPort`. -/
  | hs (k : HsStep)
  /-- `closePort` is about to release the Transport. -/
  | closing
  /-- It has released it, and `st` is about to follow. -/
  | shut
  /-- Inside the streamed read. -/
  | stream (k : StreamStep)
  /-- Inside the non-HD read, about to poll. -/
  | block
  /-- The poll has returned these bytes. -/
  | framing (bs : List Byte)
  /-- They are in the block, and the framing judges it. -/
  | framed
  /-- The payload of a track write is about to be written. -/
  | payload (precomp : Bool)
  /-- Inside the decoder's scan. -/
  | scan
  /-- Inside the adapter's `seek`, about to look at this head. -/
  | seek (track head : Nat)
  deriving DecidableEq, Repr

/-- The steps of `CaptureAndDecode` whose result is awaited (46_device_adapter.md R284). -/
inductive CapStep where
  | calOut | calBack | select | surface | read
  deriving DecidableEq, Repr

/-- An operation that waits for the code of an operation it has called (60_exceptions.md R312). -/
inductive Frame where
  | rewind
  | enableOn
  | enableOff
  | enableWrite
  | density
  | features
  | streamStart
  /-- The poll of the streaming loop, while the abort byte a cancellation asks for is sent
  (43_streaming_read.md R202). -/
  | abortPoll
  | stalled
  | payload (precomp : Bool)
  | closing
  | attachOpen
  | attachDensity
  | capture (k : CapStep) (track head attempt : Nat)
  | captureDecode (track head : Nat)
  | seekHead (track head : Nat)
  | serve (head offset : Nat)
  deriving DecidableEq, Repr

/-! ### The ways a run stops -/

/-- Why the machine stops with a fault: never. The block's errors are codes handed to the caller
(60_exceptions.md R300, R306), and where the spec gives no meaning it says `refuse`, a refusal
(00_scope.md R12; notes/assumptions/17). -/
inductive Fault where
  deriving DecidableEq, Repr

/-- Why a step is refused: "the spec gives the situation no meaning" (00_scope.md R12, R13). Nothing is
written. -/
inductive Refusal where
  /-- An instruction whose meaning is not written yet; safe. -/
  | notModelled (mnemonic : String)
  /-- An operation called in an engine state that does not allow it (00_scope.md R13, 42_commands.md
  R172, 93_implementation_defined.md U14); raised by commands and operation starts; safe. -/
  | wrongState
  /-- A command given while another operation is in flight (93 U1); raised by command meanings; safe. -/
  | busy
  /-- A Transport primitive without a Transport Session (93 U4); raised by every step that reads or
  writes the channel; safe. -/
  | noTransport
  /-- A response, echo, version reply, data byte or sync constant outside the exchange or scan that
  gives it a meaning (30_encoding.md R95, R99); raised by those meanings; safe. -/
  | noContext
  /-- Bytes about to be written that are no command of the alphabet (30_encoding.md R99); raised by the
  fetch of a command and by `runCommand`; safe. -/
  | illegalCommand
  /-- A head outside 0 and 1, or an MFM buffer with a run outside 2 to 5 between two 1 bits
  (93 U11), or a cursor whose bit is not 0 to 7 (45 R236); raised by `selectSurface`, the
  precompensated write and the bit operations; safe. -/
  | badOperand
  /-- `readBit` at a cursor at or beyond its buffer's capacity (45_mfm_decoder.md R238); raised by the
  worker's `readBit`; safe. -/
  | pastBuffer
  /-- A bit length beyond the buffer (93_implementation_defined.md U10, 45_mfm_decoder.md R235); raised by
  the start of `decode` and by the load of a capture for it; safe. -/
  | captureBounds
  /-- An adapter operation on a slot without a device (46_device_adapter.md R281); safe. -/
  | notAttached
  deriving DecidableEq, Repr

/-! ### The state -/

/-- The whole machine: one drive slot. -/
structure State where
  -- Protocol Session
  st : EngineState
  fw : Firmware
  lastError : Code
  lastCommand : Byte
  diskPresent : Bool
  writeProtected : Bool
  isHDMode : Bool
  abortRequested : Bool
  -- Transport Session
  tp : Transport
  -- engine working registers
  hs : Handshake
  str : Stream
  cap : Capture
  wr : WriteBuf
  blk : Block
  -- decoder
  dec : Decoder
  -- adapter
  ad : Adapter
  out : Out
  -- clock
  now : Nat
  -- control
  phase : Phase
  frames : List Frame
  ops : List Op
  -- environment
  env : List Move
  beyond : Beyond
  cur : Move
  -- parameters
  par : Params
  deriving DecidableEq, Repr

/-! ### Reset -/

/-- Five bytes of 0x00 (10_state.md R30, R31). -/
def Window.zero : Window := { b0 := 0, b1 := 0, b2 := 0, b3 := 0, b4 := 0 }

/-- The value a register of unspecified reset value holds (DESIGN CHOICE; notes/assumptions/4). -/
def Firmware.zero : Firmware :=
  { major := 0, minor := 0, fullControlMod := false, deviceFlags1 := 0, deviceFlags2 := 0
    buildNumber := 0 }

/-- The selection at reset (DESIGN CHOICE; notes/assumptions/4). -/
def Selection.zero : Selection := { head := 0, cyl := 0, sector := 0, size := 0 }

/-- No Transport Session, at a port with this line configuration (10_state.md R29; notes/assumptions/21). -/
def Transport.absent (line : Line) : Transport :=
  { isOpen := false, path := "", saved := line, line := line
    rdTimeout := { base := 0, perByte := 0 }, wrTimeout := { base := 0, perByte := 0 }
    dtr := false, rts := false, cts := false, rx := [], tx := [] }

/-- The streaming registers at their initial values (43_streaming_read.md R201). -/
def Stream.initial : Stream :=
  { awin := Window.zero, nStall := 0, abortSent := false, userAbort := false
    wcur := { pos := 0, bit := 0 }, chunk := [], startTries := 0 }

/-- The decoder at the start of a call (70_reset_and_hazards.md R344). The header latch and the outputs
`nonstandardTimings` and `sectorsWithErrors` have no value there until they are written: zero and false
here (DESIGN CHOICE, unsafe; notes/assumptions/4). -/
def Decoder.initial (isHD : Bool) (cylinder head expected : Nat) : Decoder :=
  { isHD := isHD, cylinder := cylinder, head := head, expected := expected
    sr := 0, t := 0, headerFound := false, hdr := { c := 0, h := 0, r := 0, n := 0 }, hdrErr := 0
    lastSector := 0, prevEnd := none, gapTotal := 0, numGaps := 0
    trk := [], nonstandardTimings := false, sectorsWithErrors := 0 }

/-- A move in which the environment does nothing and a Transport call comes up full: what a step reads
when the list of moves has run out (DESIGN CHOICE; notes/assumptions/6). -/
def Move.quiet : Move :=
  { dt := 0, arrive := [], drain := 0, cts := none, abort := none
    openAnswer := .opened (.found 0) false false, configOk := true, accept := none, take := none
    busy := 0
    draw := { fw := Firmware.zero, diskPresent := false, writeProtected := false, isHDMode := false
              curTrack := 0, sel := Selection.zero } }

/-- The machine right after the creation of a Protocol Session (70_reset_and_hazards.md R340). No capture
has been read or loaded: capacity 0 and no valid bit (DESIGN CHOICE, unsafe: the spec gives neither;
notes/assumptions/5). -/
def State.reset : State :=
  { st := .closed, fw := Firmware.zero, lastError := .ok, lastCommand := 0x00
    diskPresent := false, writeProtected := false, isHDMode := false, abortRequested := false
    tp := Transport.absent (.found 0)
    hs := { vwin := Window.zero, nSeen := 0, nEmpty := 0, t0 := 0, path := "", ctsFlow := false
            triggerReset := false }
    str := Stream.initial
    cap := { buf := [], size := 0, bitLength := 0 }
    wr := { mfm := [], nbits := 0 }
    blk := { got := [], empty := 0 }
    dec := Decoder.initial false 0 0 0
    ad := { attached := false, curTrack := 0, cache := [], sel := Selection.zero }
    out := .none
    now := 0, phase := .idle, frames := [], ops := [], env := [], beyond := .again [], cur := Move.quiet
    par := Config.params }

end Sys2Proof.Machine
end

