-- ==== Sys2Proof/Machine/Bits.lean ====
section
/-! DEFINITION. Memory, bit access, clock-bit removal and CRC16 (00_scope.md R11,
45_mfm_decoder.md sections 2 to 4). -/

namespace Sys2Proof.Machine

/-! ### Bytes by index -/

/-- The byte at an index. -/
def Memory.get : Memory → Nat → Byte
  | [], _ => Memory.unlisted
  | (a, v) :: rest, i => if a = i then v else Memory.get rest i

/-- Writing one byte; keeps the canonical form. -/
def Memory.set : Memory → Nat → Byte → Memory
  | [], i, v => if v = Memory.unlisted then [] else [(i, v)]
  | (a, w) :: rest, i, v =>
    if i < a then if v = Memory.unlisted then (a, w) :: rest else (i, v) :: (a, w) :: rest
    else if i = a then if v = Memory.unlisted then rest else (i, v) :: rest
    else (a, w) :: Memory.set rest i v

/-- The memory that holds these bytes from an index on. -/
def Memory.ofBytes : Nat → List Byte → Memory
  | _, [] => []
  | i, b :: bs =>
    if b = Memory.unlisted then Memory.ofBytes (i + 1) bs else (i, b) :: Memory.ofBytes (i + 1) bs

/-! ### Bits of a byte, the most significant first (00_scope.md R11) -/

/-- The bit under mask `0x80 >> k`. -/
def bitOf (b : Byte) (k : Nat) : Bool := b.getMsbD k

/-- The byte with the bit under mask `0x80 >> k` set or cleared (45_mfm_decoder.md R237). -/
def withBit (b : Byte) (k : Nat) (x : Bool) : Byte :=
  if x then b ||| ((0x80 : Byte) >>> k) else b &&& ~~~((0x80 : Byte) >>> k)

/-- The bits of a byte, the most significant first. -/
def bitsOfByte (b : Byte) : List Bool := (List.range 8).map (bitOf b)

/-- The bits of a bit-packed buffer, in the order of a capture (00_scope.md R11). -/
def bitsOfBytes (bs : List Byte) : List Bool := bs.flatMap bitsOfByte

/-! ### Cursors (45_mfm_decoder.md R236, R237, R238) -/

/-- The linear bit index a cursor denotes. -/
def Cursor.linear (c : Cursor) : Nat := 8 * c.pos + c.bit

/-- The next bit. -/
def Cursor.advance (c : Cursor) : Cursor :=
  if c.bit + 1 = 8 then { pos := c.pos + 1, bit := 0 } else { pos := c.pos, bit := c.bit + 1 }

/-- `WriteBit` on a buffer of `size` bytes: one bit is written and the cursor advances; out of bounds
nothing happens (45_mfm_decoder.md R237). -/
def writeBit (size : Nat) (buf : Memory) (c : Cursor) (x : Bool) : Memory × Cursor :=
  if size ≤ c.pos then (buf, c)
  else (buf.set c.pos (withBit (buf.get c.pos) c.bit x), c.advance)

/-- `ReadBit`: the bit and the advanced cursor; no answer out of bounds (45_mfm_decoder.md R238). -/
def readBit (size : Nat) (buf : Memory) (c : Cursor) : Option (Bool × Cursor) :=
  if size ≤ c.pos then none else some (bitOf (buf.get c.pos) c.bit, c.advance)

/-- The cursor after `WriteBit`, in and out of bounds (45_mfm_decoder.md R237). -/
def Cursor.written (c : Cursor) (size : Nat) : Cursor := if size ≤ c.pos then c else c.advance

/-- Writing a list of bits from a cursor. -/
def writeBits (size : Nat) : List Bool → Memory → Cursor → Memory × Cursor
  | [], buf, c => (buf, c)
  | x :: xs, buf, c => writeBits size xs (writeBit size buf c x).1 (writeBit size buf c x).2

/-- Reading `n` bits from a cursor; no answer if one of them is out of bounds. -/
def readBits (size : Nat) : Nat → Memory → Cursor → Option (List Bool × Cursor)
  | 0, _, c => some ([], c)
  | n + 1, buf, c =>
    match readBit size buf c with
    | none => none
    | some (x, c') =>
      match readBits size n buf c' with
      | none => none
      | some (xs, c'') => some (x :: xs, c'')

/-- Appending bits until the buffer is full, that is until the cursor has reached bit `8 * size`
(43_streaming_read.md R203). -/
def fillBits (size : Nat) : List Bool → Memory → Cursor → Memory × Cursor
  | [], buf, c => (buf, c)
  | x :: xs, buf, c =>
    if c.linear = 8 * size then (buf, c)
    else fillBits size xs (writeBit size buf c x).1 (writeBit size buf c x).2

/-! ### Capture bits, as a circle (00_scope.md R11) -/

/-- The bit at a linear index. -/
def Capture.bitAt (cap : Capture) (i : Nat) : Bool := bitOf (cap.buf.get (i / 8)) (i % 8)

/-- `CapBit(i)`: the capture bit at index `i mod bitLength`. -/
def Capture.capBit (cap : Capture) (i : Nat) : Bool := cap.bitAt (i % cap.bitLength)

/-! ### Clock-bit removal (45_mfm_decoder.md R243) -/

/-- One byte from the eight odd-offset bits of the 16 bits at `s`, the first into bit 7. -/
def oddByte (bit : Nat → Bool) (s : Nat) : Byte :=
  (List.range 8).foldl (fun acc k => (acc <<< 1) ||| (if bit (s + 2 * k + 1) then 1 else 0)) 0

/-- `n` such bytes, 16 bits apart. -/
def oddBytes (bit : Nat → Bool) (s n : Nat) : List Byte :=
  (List.range n).map fun j => oddByte bit (s + 16 * j)

/-- `Extract(s, n)`. -/
def Capture.extract (cap : Capture) (s n : Nat) : List Byte := oddBytes cap.capBit s n

/-- The bytes of a buffer. -/
def Memory.toBytes (buf : Memory) (size : Nat) : List Byte := (List.range size).map buf.get

/-- Whether the capture has a bit at the circle's index `i`: it is not empty, and its buffer reaches
there. -/
def Capture.holds (cap : Capture) (i : Nat) : Bool :=
  cap.bitLength != 0 && decide (i % cap.bitLength < 8 * cap.size)

/-- The bit a caller of `Extract` is given for index `i`: `CapBit(i)`, and a free value where the capture
has no such bit (DESIGN CHOICE; notes/assumptions/38). -/
def Capture.askedBit (cap : Capture) (i : Nat) : Bool :=
  if cap.holds i then cap.capBit i
  else Config.bitBeyond (cap.buf.toBytes cap.size) cap.bitLength (i % cap.bitLength)

/-! ### CRC16 (45_mfm_decoder.md R242) -/

/-- One shift of the CRC register. -/
def crcBit (crc : Half) : Half :=
  if crc.msb then (crc <<< 1) ^^^ Config.crcPoly else crc <<< 1

/-- `n` shifts of the CRC register. -/
def crcBits : Nat → Half → Half
  | 0, crc => crc
  | n + 1, crc => crcBits n (crcBit crc)

/-- One byte into the CRC register: into the high byte, then eight shifts. -/
def crcByte (crc : Half) (b : Byte) : Half := crcBits 8 (crc ^^^ (b.setWidth 16 <<< 8))

/-- `Crc16(bytes)`. -/
def crc16 (bs : List Byte) : Half := bs.foldl crcByte Config.crcInit

/-- A stored CRC, high byte first (20_memory.md R64 (d)). -/
def storedCrc (hi lo : Byte) : Half := (hi.setWidth 16 <<< 8) ||| lo.setWidth 16

end Sys2Proof.Machine
end

