-- ==== Sys2Proof/Machine/Ops.lean ====
section
/-! DEFINITION. The named operations over registers and the serial channel: the environment's move,
the clock, the Transport primitives (40_transport.md), the sliding windows, and the one way an
operation hands a diagnostic code to its caller (60_exceptions.md R305, R310). -/

namespace Sys2Proof.Machine

/-- What a step answers. -/
abbrev Answer := Host.Outcome State Fault Refusal

/-- The same answer with its next state changed. -/
def Answer.onNext (o : Answer) (f : State → State) : Answer :=
  match o with
  | .next s => .next (f s)
  | .fault r => .fault r
  | .refused r => .refused r

/-! ### The environment's move -/

/-- The channel after the environment's part of a step: bytes the device sent are behind those already
there, bytes it took leave from the front, CTS follows (20_memory.md R66). Without a session there is
no channel. -/
def Transport.serve (tp : Transport) (m : Move) : Transport :=
  if tp.isOpen then
    { tp with rx := tp.rx ++ m.arrive, tx := tp.tx.drop m.drain, cts := m.cts.getD tp.cts }
  else tp

/-- The first move beyond the list. -/
def Beyond.move : Beyond → Move
  | .again [] => Move.quiet
  | .again (m :: _) => m
  | .free n => Config.freeMove n

/-- The list after that move. -/
def Beyond.refill : Beyond → List Move
  | .again ms => ms.tail
  | .free _ => []

/-- What is beyond it after that move. -/
def Beyond.next : Beyond → Beyond
  | .again ms => .again ms
  | .free n => .free (n + 1)

/-- The environment's next move. -/
def State.nextMove (s : State) : Move :=
  match s.env with
  | m :: _ => m
  | [] => s.beyond.move

/-- The moves listed after the next one. -/
def State.restMoves (s : State) : List Move :=
  match s.env with
  | _ :: rest => rest
  | [] => s.beyond.refill

/-- What is beyond the list after the next move. -/
def State.restBeyond (s : State) : Beyond :=
  match s.env with
  | _ :: _ => s.beyond
  | [] => s.beyond.next

/-- The environment's part of a step: its next move is made. -/
def State.tick (s : State) : State :=
  { s with
    cur := s.nextMove
    env := s.restMoves
    beyond := s.restBeyond
    now := s.now + s.nextMove.dt
    abortRequested := s.nextMove.abort.getD s.abortRequested
    tp := s.tp.serve s.nextMove }

/-! ### Control registers -/

/-- Continue at another point of the pseudocode. -/
def State.goto (s : State) (p : Phase) : State := { s with phase := p }

/-- An operation waits for the code of one it calls. -/
def State.push (s : State) (f : Frame) : State := { s with frames := f :: s.frames }

/-- The engine state register (10_state.md R22). -/
def State.setSt (s : State) (st : EngineState) : State := { s with st := st }

/-- The mode, a function of `st` (10_state.md R23). -/
def EngineState.mode : EngineState → Mode
  | .closed | .syncing | .ready => .idle
  | .readEnabled => .readEnabled
  | .writeEnabled => .writeEnabled
  | .streaming => .streaming

/-- The states in which commands are allowed (42_commands.md R172). -/
def EngineState.commands : EngineState → Bool
  | .ready | .readEnabled | .writeEnabled => true
  | .closed | .syncing | .streaming => false

/-! ### Returning a diagnostic code -/

/-- `return E`, the block's one way to take an exception: `lastError <- E`, and the code goes to the
caller (60_exceptions.md R305, R310). -/
def State.ret (s : State) (c : Code) : State := { s with lastError := c, phase := .ret c }

/-- The caller's next action: the waiting operation is taken off (60_exceptions.md R312); `resume` says
what it does with the code. -/
def State.pop (s : State) (rest : List Frame) : State := { s with frames := rest }

/-! ### The clock (70_reset_and_hazards.md R352) -/

/-- `Pause(d)`. -/
def State.pause (s : State) (d : Nat) : State := { s with now := s.now + d }

/-! ### The channel (40_transport.md R132 to R136) -/

/-- The deadline of a transfer of `n` bytes (40_transport.md R132). -/
def deadline (t : Timeout) (n : Nat) : Nat := t.base + t.perByte * n

/-- How many of `n` bytes a write accepts: the environment decides (40_transport.md R133). -/
def State.accepted (s : State) (n : Nat) : Nat := min (s.cur.accept.getD n) n

/-- The machine after `TxWrite(bs)`: the accepted bytes stand in `tp.tx`; a short count means the
deadline has passed. -/
def State.wrote (s : State) (bs : List Byte) : State :=
  { s with
    tp := { s.tp with tx := s.tp.tx ++ bs.take (s.accepted bs.length) }
    now := s.now + if s.accepted bs.length < bs.length then deadline s.tp.wrTimeout bs.length
      else min s.cur.busy (deadline s.tp.wrTimeout bs.length) }

/-- How many bytes `RxRead(max)` returns: at most `max`, at most what is there, and at most what the
environment lets through (40_transport.md R134, D38). -/
def State.readCount (s : State) (max : Nat) : Nat :=
  min (min max s.tp.rx.length) (s.cur.take.getD max)

/-- The bytes `RxRead(max)` returns. -/
def State.received (s : State) (max : Nat) : List Byte := s.tp.rx.take (s.readCount max)

/-- The machine after `RxRead(max)`: the returned bytes are consumed (20_memory.md R66); a short count
means the deadline has passed. -/
def State.afterRead (s : State) (max : Nat) : State :=
  { s with
    tp := { s.tp with rx := s.tp.rx.drop (s.readCount max) }
    now := s.now + if s.readCount max < max then deadline s.tp.rdTimeout max
      else min s.cur.busy (deadline s.tp.rdTimeout max) }

/-- `purgeBuffers()` (40_transport.md R136). -/
def State.purge (s : State) : State := { s with tp := { s.tp with rx := [], tx := [] } }

/-- `bytesWaiting()` (40_transport.md R136). -/
def State.bytesWaiting (s : State) : Nat := s.tp.rx.length

/-- `setDTR(v)` (40_transport.md R135). -/
def State.setDTR (s : State) (v : Bool) : State := { s with tp := { s.tp with dtr := v } }

/-- `setRTS(v)`. -/
def State.setRTS (s : State) (v : Bool) : State := { s with tp := { s.tp with rts := v } }

/-- `getCTS()`; no rule calls it (60_exceptions.md R317). -/
def State.getCTS (s : State) : Bool := s.tp.cts

/-- `setReadTimeout(t)` (40_transport.md R132). -/
def State.setReadTimeout (s : State) (t : Timeout) : State :=
  { s with tp := { s.tp with rdTimeout := t } }

/-- `setWriteTimeout(t)`. -/
def State.setWriteTimeout (s : State) (t : Timeout) : State :=
  { s with tp := { s.tp with wrTimeout := t } }

/-- `open(path)` succeeding (40_transport.md R130): a session exists and remembers the line
configuration found; `rx` holds whatever the device has sent, `tx` is empty (DESIGN CHOICE: the spec
calls the FIFO contents unspecified; notes/assumptions/21). -/
def State.opened (s : State) (path : String) (line : Line) (dtr rts : Bool) : State :=
  { s with
    tp := { Transport.absent line with
            isOpen := true, path := path, dtr := dtr, rts := rts, rx := s.cur.arrive } }

/-- `configure(baud, flow)` succeeding (40_transport.md R131): raw 8N1, DTR asserted. -/
def State.configured (s : State) (baud : Nat) (flow : Bool) : State :=
  { s with tp := { s.tp with line := .raw8N1 baud flow, dtr := true } }

/-- `close()` (40_transport.md R137): the saved line configuration is restored and the Transport Session
ceases to exist. -/
def State.closeSession (s : State) : State := { s with tp := Transport.absent s.tp.saved }

/-! ### Commands -/

/-- `lastCommand` is written when a command byte is about to be written (60_exceptions.md R305). -/
def State.setLastCommand (s : State) (c : Byte) : State := { s with lastCommand := c }

/-- The pause before a command (42_commands.md R170), a step of its own. -/
def State.commandPause (s : State) (next : Phase) : State := (s.pause Config.cmdPause).goto next

/-- An operation that sends a wire command begins with the pause before it, in an engine state that
allows the command (42_commands.md R170, R172). -/
def State.startCommand (s : State) (allowed : Bool) (w : List Byte) : Answer :=
  if allowed then .next (s.goto (.pause w)) else .refused .wrongState

/-- `lastCommand <- c`, a step of its own before the write of the byte (42_commands.md R170). -/
def State.commandMark (s : State) (c : Byte) (next : Phase) : State := (s.setLastCommand c).goto next

/-- One call of `TxWrite` whose count is examined: a short one leads to the return of `e`, a full one to
`next` (42_commands.md R170, R176, R182, R183). -/
def State.send (s : State) (bs : List Byte) (e : Code) (next : Phase) : State :=
  (s.wrote bs).goto (if s.accepted bs.length = bs.length then next else .exit e)

/-- The write of a command, after its pause and its mark. -/
def State.sendCommand (s : State) (bs : List Byte) (next : Phase) : State := s.send bs .sendFailed next

/-- One call of `RxRead`; the next step uses what it returned. -/
def State.readTo (s : State) (max : Nat) (next : List Byte → Phase) : State :=
  (s.afterRead max).goto (next (s.received max))

/-- Whether a wire command is about to be written. -/
def Phase.isIssue : Phase → Bool
  | .issue _ => true
  | _ => false

/-- Why a command cannot be given: another operation is in flight (93 U1), the engine state does not
allow it (42_commands.md R172, D36), or there is no Transport Session (93 U4). -/
def State.commandRefusal (s : State) (allowed : Bool) : Option Refusal :=
  if s.phase.isIssue = false then some .busy
  else if allowed = false then some .wrongState
  else if s.tp.isOpen = false then some .noTransport
  else none

/-- A command's effect, unless it is refused; a refusal writes nothing (60_exceptions.md R305). -/
def State.command (s : State) (allowed : Bool) (next : State) : Answer :=
  match s.commandRefusal allowed with
  | some r => .refused r
  | none => .next next

/-- A step that calls a Transport primitive needs a Transport Session (93 U4). -/
def State.onChannel (s : State) (next : State) : Answer :=
  if s.tp.isOpen then .next next else .refused .noTransport

/-- The response the engine judges, if it judges one. -/
def Phase.judging : Phase → Option Await
  | .judge a _ => some a
  | _ => none

/-- A response's effect, in the exchange that awaits it (30_encoding.md R95). -/
def State.answer (s : State) (a : Await) (next : State) : Answer :=
  if s.phase.judging = some a then .next next else .refused .noContext

/-! ### Sliding windows (10_state.md R30, R31) -/

/-- The window after one more byte. -/
def Window.push (w : Window) (b : Byte) : Window :=
  { b0 := w.b1, b1 := w.b2, b2 := w.b3, b3 := w.b4, b4 := b }

/-- The window's bytes, oldest first. -/
def Window.bytes (w : Window) : List Byte := [w.b0, w.b1, w.b2, w.b3, w.b4]

/-! ### The Decoded Track and the adapter's cache as finite maps (20_memory.md R68, 10_state.md R40) -/

/-- The sector stored under a key. -/
def Track.get : Track → Nat → Option Sector
  | [], _ => none
  | (k, e) :: rest, i => if k = i then some e else Track.get rest i

/-- `trk[k] <- e`; keys stay strictly rising. -/
def Track.set : Track → Nat → Sector → Track
  | [], i, e => [(i, e)]
  | (k, f) :: rest, i, e =>
    if i < k then (i, e) :: (k, f) :: rest
    else if i = k then (i, e) :: rest
    else (k, f) :: Track.set rest i e

/-- Keys strictly rising: one list per map. -/
def Track.wf : Track → Bool
  | [] => true
  | [_] => true
  | (a, _) :: (b, e) :: rest => decide (a < b) && Track.wf ((b, e) :: rest)

/-- The cached track of a track and a head. -/
def cacheGet : List CacheEntry → Nat → Nat → Option Track
  | [], _, _ => none
  | e :: rest, t, h => if e.track = t ∧ e.head = h then some e.trk else cacheGet rest t h

/-- `cache[(track, head)] <- trk`, ordered by track, then head. -/
def cacheSet : List CacheEntry → CacheEntry → List CacheEntry
  | [], n => [n]
  | e :: rest, n =>
    if n.track < e.track ∨ (n.track = e.track ∧ n.head < e.head) then n :: e :: rest
    else if n.track = e.track ∧ n.head = e.head then n :: rest
    else e :: cacheSet rest n

end Sys2Proof.Machine
end

