-- ==== Sys2Proof/Machine/Operands.lean ====
section
/-! DEFINITION. Operand forms: the stream symbols of a byte, the size code, the transitions of a
write buffer (30_encoding.md sections 4, 6, 7; 44_track_write.md section 2). -/

namespace Sys2Proof.Machine

/-! ### Stream symbols (30_encoding.md R101) -/

/-- `SYMBOL_BITS(v)`. -/
def symbolBits (p : Params) (v : BitVec 2) : List Bool :=
  if v = 0 then p.sym0 else if v = 1 then p.sym1 else if v = 2 then p.sym2 else p.sym3

/-- Group `g` of a byte, `b[2g+1 : 2g]` (43_streaming_read.md R203). -/
def symbolOf (b : Byte) (g : Nat) : BitVec 2 := b.extractLsb' (2 * g) 2

/-- The capture bits of a stream byte: its four symbols, the most significant pair first (20_memory.md R64 (f)). -/
def streamBits (p : Params) (b : Byte) : List Bool :=
  [3, 2, 1, 0].flatMap fun g => symbolBits p (symbolOf b g)

/-! ### Size code (30_encoding.md R98) -/

/-- The data length in bytes of a size code. -/
def sectorSize (n : Nat) : Nat := 2 ^ (7 + n)

/-! ### Track write (44_track_write.md R222, R223, R224) -/

/-- The precompensation hint of a transition from its neighbours `m[i-2] m[i-1] 1 m[i+1] m[i+2]`, on
every track (DESIGN CHOICE: whether inner tracks alone have it is not in the source;
notes/assumptions/34). -/
def precompHint (p2 p1 n1 n2 : Bool) : Precomp :=
  if p2 && !p1 && !n1 && !n2 then .early
  else if !p2 && !p1 && !n1 && n2 then .late
  else .none

/-- The transitions of an MFM buffer in order: for every 1 bit the distance in bit cells from the
previous 1 bit, if there is one, and the hint; bits outside the buffer are 0. `p2 p1` are the two bits
before, `since` the cells passed since the last 1 bit. -/
def transitions (p2 p1 : Bool) (since : Option Nat) : List Bool → List (Option Nat × Precomp)
  | [] => []
  | x :: rest =>
    if x then
      (since.map (· + 1), precompHint p2 p1 (rest[0]?.getD false) (rest[1]?.getD false))
        :: transitions p1 x (some 0) rest
    else transitions p1 x (since.map (· + 1)) rest

/-- A run between two 1 bits is 2 to 5 cells (30_encoding.md R102). -/
def legalRun (r : Option Nat × Precomp) : Bool :=
  match r.1 with
  | none => true
  | some n => decide (2 ≤ n) && decide (n ≤ 5)

/-- The bits of a write buffer, in the order of a capture (44_track_write.md R220); those that `nbits`
counts and the bytes do not hold are free (DESIGN CHOICE; notes/assumptions/28). -/
def WriteBuf.bits (w : WriteBuf) : List Bool :=
  (bitsOfBytes w.mfm).take w.nbits
    ++ (List.range (w.nbits - 8 * w.mfm.length)).map fun k =>
      Config.bitBeyond w.mfm w.nbits (8 * w.mfm.length + k)

/-- The transitions of a write buffer. -/
def WriteBuf.transitions (w : WriteBuf) : List (Option Nat × Precomp) :=
  Machine.transitions false false none w.bits

/-- The transition byte: the code plus one, never 0x00 (30_encoding.md R102). -/
def transitionByte (r : Option Nat × Precomp) : Byte :=
  BitVec.ofNat 8 ((Config.transitionCode r.1 r.2).val + 1)

/-- The payload: `Reencode` for the precompensated write, the parameter's for the plain one. -/
def WriteBuf.payload (w : WriteBuf) (precomp : Bool) : List Byte :=
  if precomp then w.transitions.map transitionByte else Config.plainPayload w.bits

/-- The payload framed: null-terminated for HD, length-prefixed else (44_track_write.md R224). -/
def framed (hd : Bool) (payload : List Byte) : List Byte :=
  if hd then payload ++ [0x00] else Config.lengthPrefix payload ++ payload

/-! ### Geometry (46_device_adapter.md R281, R284) -/

/-- Sectors per track. -/
def sectorsPerTrack (hd : Bool) : Nat := if hd then Config.sectorsHD else Config.sectorsDD

/-- `CalTrack(track)`. -/
def calTrack (track : Nat) : Nat :=
  if track + Config.calibDistance ≤ Config.trackMax then track + Config.calibDistance
  else track - Config.calibDistance

end Sys2Proof.Machine
end

