-- ==== Sys2Proof/Machine/Flags.lean ====
section
/-! DEFINITION. Flags and codes: which code a failure maps to, the version comparisons, the error
counts of the decoder, and the flags it ends with (60_exceptions.md R301, 41_handshake.md R158, R159,
45_mfm_decoder.md R247, R249, R254, R257, R259). -/

namespace Sys2Proof.Machine

/-- `PortCode(e)` (60_exceptions.md R301). -/
def portCode : PortError → Code
  | .notFound => .notFound
  | .inUse => .inUse
  | .accessDenied => .accessDenied
  | .other => .generic

/-- The result of `rewind`: every failure is `RewindFailure` (42_commands.md R174). -/
def rewindCode (c : Code) : Code := if c = .ok then .ok else .rewindFailure

/-- The result of `checkDisk` for the flag (42_commands.md R182). -/
def presenceCode (present : Bool) : Code := if present then .ok else .noDiskInDrive

/-- The lexicographic order of versions (10_state.md R24). -/
def versionAtLeast (fw : Firmware) (major minor : Nat) : Bool :=
  decide (major < fw.major.toNat) || (fw.major.toNat == major && decide (minor ≤ fw.minor.toNat))

/-- Whether the feature query is due: version at least 1.9 (41_handshake.md R158). -/
def featuresDue (fw : Firmware) : Bool :=
  versionAtLeast fw Config.featuresMajor Config.featuresMinor

/-- Whether the firmware is accepted (41_handshake.md R159). -/
def firmwareAccepted (fw : Firmware) (p : Params) : Bool := versionAtLeast fw p.minMajor p.minMinor

/-- One error or none. -/
def errorIf (x : Bool) : Half := if x then 1 else 0

/-- Whether a record's stored CRC, its last two bytes after the first `n`, is that of the first `n`
(45_mfm_decoder.md R247, R251). -/
def crcValid (rec : List Byte) (n : Nat) : Bool :=
  crc16 (rec.take n) == storedCrc (rec.getD n 0) (rec.getD (n + 1) 0)

/-- The header error count: CRC mismatch, sector number 0, wrong cylinder, wrong head, one each
(45_mfm_decoder.md R249). -/
def headerErrors (rec : List Byte) (cylinder head : Nat) : Half :=
  errorIf (!crcValid rec 8) + errorIf ((rec.getD 6 0).toNat == 0)
    + errorIf ((rec.getD 4 0).toNat != cylinder) + errorIf ((rec.getD 5 0).toNat != head)

/-- `nonstandardTimings` (45_mfm_decoder.md R257). -/
def gapFlag (gapTotal numGaps : Nat) : Bool :=
  decide (0 < numGaps) && decide (gapTotal / numGaps < Config.gapThreshold)

/-- `sectorsWithErrors` (45_mfm_decoder.md R259). -/
def countErrors (trk : Track) : Nat := trk.countP fun e => e.2.errorCount != 0

end Sys2Proof.Machine
end

