-- ==== Sys2Proof/Machine/Commands.lean ====
section
/-! DEFINITION. The simple commands: what each writes and what it waits for (42_commands.md). The
result of the exchange is what `resume` and the response meanings make of it. -/

namespace Sys2Proof.Machine

/-- The write of `runCommand(c)`, up to its response (42_commands.md R170). -/
def State.runCommand (s : State) (c : Byte) : State := s.sendCommand [c] (.await .rsp1)

/-- `.`: `rewind` (42_commands.md R174). -/
def execRewind (s : State) : Answer :=
  s.command s.st.commands ((s.push .rewind).runCommand Cmd.rewind)

/-- `#`: `selectTrack(n)`; above 83 no pause, no write, no read (42_commands.md R176, R177). -/
def execGotoTrack (n : Nat) (s : State) : Answer :=
  s.command s.st.commands
    (if Config.trackMax < n then s.ret .trackRangeError
     else s.sendCommand (encodeTrack n) (.await .rspT))

/-- `[`: `selectSurface(0)` (42_commands.md R178). -/
def execHead0 (s : State) : Answer := s.command s.st.commands (s.runCommand Cmd.head0)

/-- `]`: `selectSurface(1)` (42_commands.md R178). -/
def execHead1 (s : State) : Answer := s.command s.st.commands (s.runCommand Cmd.head1)

/-- `+`: `enableReading(true)`, refused in `WriteEnabled` (42_commands.md R180). -/
def execEnable (s : State) : Answer :=
  s.command (s.st == .ready || s.st == .readEnabled) ((s.push .enableOn).runCommand Cmd.enable)

/-- `-`: `enableReading(false)` (42_commands.md R181). -/
def execDisable (s : State) : Answer :=
  s.command s.st.commands ((s.push .enableOff).runCommand Cmd.disable)

/-- `^`: `checkDisk(true)` (42_commands.md R182). -/
def execCheckDisk (s : State) : Answer :=
  s.command s.st.commands (s.sendCommand [Cmd.checkDisk] (.await .diskPresence))

/-- `$`: `checkWriteProtect` (42_commands.md R183). -/
def execCheckWp (s : State) : Answer :=
  s.command s.st.commands (s.sendCommand [Cmd.checkWp] (.await .wpByte))

/-- `T`: `checkDensity` (42_commands.md R184). -/
def execDensity (s : State) : Answer :=
  s.command s.st.commands ((s.push .density).runCommand Cmd.density)

/-- `&`: `diagnostics` (42_commands.md R186). -/
def execDiagnostics (s : State) : Answer := s.command s.st.commands (s.runCommand Cmd.diagnostics)

/-! ### What the operations do with the code of the exchange -/

/-- A move of the engine state, if the operation makes one, and the return of the code: two updates, two
steps (00_scope.md R18). -/
def State.moveAndReturn (s : State) (moves : Bool) (st : EngineState) (c : Code) : State :=
  if moves then (s.setSt st).goto (.exit c) else s.ret c

/-- `enableReading(true)` after its exchange (42_commands.md R180). -/
def State.afterEnable (s : State) (c : Code) : State :=
  s.moveAndReturn (c == .ok && s.st == .ready) .readEnabled c

/-- `enableReading(false)` after its exchange (42_commands.md R181). -/
def State.afterDisable (s : State) (c : Code) : State :=
  s.moveAndReturn (c == .ok && (s.st == .readEnabled || s.st == .writeEnabled)) .ready c

/-- `enableWriting` after its exchange (44_track_write.md R221). -/
def State.afterEnableWrite (s : State) (c : Code) : State :=
  s.moveAndReturn (c == .ok && s.st == .ready) .writeEnabled c

/-- `checkDensity` after its status byte: the density byte is read only on `OK` (42_commands.md R184). -/
def State.afterDensity (s : State) (c : Code) : State :=
  if c = .ok then s.goto (.await .density) else s.ret c

/-- No response byte before the read deadline (42_commands.md R170, R171). -/
def State.noResponse (s : State) : State := s.ret .readResponseFailed

/-! ### Operations given by a call -/

/-- `selectTrack(n)` as a call: the range is tested before any I/O (42_commands.md R176). -/
def State.startSelectTrack (s : State) (n : Nat) : Answer :=
  if s.st.commands = true ∧ Config.trackMax < n then .next (s.ret .trackRangeError)
  else s.startCommand s.st.commands (encodeTrack n)

/-- `selectSurface(h)` as a call; a head outside 0 and 1 is refused (93 U11). -/
def State.startSelectSurface (s : State) (h : Nat) : Answer :=
  if h = 0 then s.startCommand s.st.commands [Cmd.head0]
  else if h = 1 then s.startCommand s.st.commands [Cmd.head1]
  else .refused .badOperand

/-- `enableReading(on)` as a call (42_commands.md R180, R181). -/
def State.startEnableReading (s : State) (on : Bool) : Answer :=
  if on then s.startCommand (s.st == .ready || s.st == .readEnabled) [Cmd.enable]
  else s.startCommand s.st.commands [Cmd.disable]

/-- `checkDisk(force)`: unforced, the cache answers without I/O (42_commands.md R182). -/
def State.startCheckDisk (s : State) (force : Bool) : Answer :=
  if force then s.startCommand s.st.commands [Cmd.checkDisk]
  else if s.st.commands then .next (s.ret (presenceCode s.diskPresent))
  else .refused .wrongState

/-- The command bytes `runCommand` may be given: the alphabet without the three the worker is not
offered (42_commands.md R188), and the parameters that are command bytes (30_encoding.md R93, R99). A
parameter that has the value of `?`, `@` or `x` may be given: the spec has no order between the two
rules (DESIGN CHOICE; notes/assumptions/22). `#` may be given alone or with one parameter byte, and its
response is then read as RSP1 like any other's: the spec gives it the three-byte form only (R91, R92,
R100) and R170 sets no limit on `c` (DESIGN CHOICE; notes/assumptions/22). -/
def mayRun (p : Params) (c : Byte) : Bool :=
  (Cmd.alphabet.contains c && c != Cmd.version && c != Cmd.features && c != Cmd.abort)
    || c == p.cmdEnableWrite || c == p.cmdReset

/-- `runCommand(c [, p])` as a call (42_commands.md R170). -/
def State.startRunCommand (s : State) (c : Byte) (p : Option Byte) : Answer :=
  if s.st.commands = false then .refused .wrongState
  else if mayRun s.par c = false then .refused .illegalCommand
  else .next (s.goto (.pauseRaw c p))

/-- `enableWriting` (44_track_write.md R221). -/
def State.startEnableWriting (s : State) : Answer :=
  if s.st.commands = false then .refused .wrongState
  else .next ((s.push .enableWrite).goto (.pauseRaw s.par.cmdEnableWrite none))

/-- What follows the command byte: the parameter byte, if one is given, else the response
(42_commands.md R170). -/
def afterCommandByte (p : Option Byte) : Phase :=
  match p with
  | none => .await .rsp1
  | some b => .param b

/-- The command byte of a call is written, after its pause and its mark. -/
def State.writeRaw (s : State) (c : Byte) (p : Option Byte) : Answer :=
  s.onChannel (s.sendCommand [c] (afterCommandByte p))

/-- The parameter byte is written (42_commands.md R170, R171). -/
def State.writeParam (s : State) (p : Byte) : Answer :=
  s.onChannel (s.send [p] .sendParameterFailed (.await .rsp1))

end Sys2Proof.Machine
end

