-- ==== Sys2Proof/Machine/Handshake.lean ====
section
/-! DEFINITION. `openPort`, the version reply, the feature query, the reset sequence and `closePort`
(41_handshake.md). -/

namespace Sys2Proof.Machine

/-- Continue inside `openPort`. -/
def State.gotoHs (s : State) (k : HsStep) : State := s.goto (.hs k)

/-- The handshake registers replaced. -/
def State.setHs (s : State) (h : Handshake) : State := { s with hs := h }

/-- `firmwareVersion` replaced. -/
def State.setFw (s : State) (fw : Firmware) : State := { s with fw := fw }

/-! ### The three rows of the handshake -/

/-- `?`: the version query sent again as a kick (41_handshake.md R154); its count is not examined, no
pause precedes it and no response byte is read for it (R152). -/
def execVersion (s : State) : Answer :=
  s.command (s.st == .syncing) ((s.wrote [Cmd.version]).gotoHs .kicked)

/-- `@`: the feature query, inside the handshake only (41_handshake.md R158, 42_commands.md R172). -/
def execFeatures (s : State) : Answer :=
  s.command (s.st == .syncing) ((s.push .features).runCommand Cmd.features)

/-- The version reply: the window has matched, and the first of the three assignments that record the
version is made (41_handshake.md R156). -/
def execVersionReply (major : BitVec 4) (dot : Bool) (minor : BitVec 4) (s : State) : Answer :=
  if s.st = .syncing ∧ s.phase = .hs .look then
    .next ((s.setFw { s.fw with major := major }).gotoHs (.minor minor dot))
  else .refused .noContext

/-! ### openPort -/

/-- `openPort` as a call (41_handshake.md R151). -/
def State.startOpenPort (s : State) (path : String) (ctsFlow triggerReset : Bool) : Answer :=
  if s.st = .closed then
    .next ((s.setHs { s.hs with path := path, ctsFlow := ctsFlow, triggerReset := triggerReset }).gotoHs .open)
  else .refused .wrongState

/-- The call of `open` (41_handshake.md R151, 40_transport.md R130). -/
def State.hsOpen (s : State) : State :=
  match s.cur.openAnswer with
  | .failed e => s.goto (.exit (portCode e))
  | .opened line dtr rts => (s.opened s.hs.path line dtr rts).gotoHs .configure

/-- The call of `configure`; after a failure the Transport is closed (41_handshake.md R151). -/
def State.hsConfigure (s : State) : State :=
  if s.cur.configOk then (s.configured s.par.baud s.hs.ctsFlow).gotoHs .syncRd else s.gotoHs .drop

/-- The opening write; its count is not examined (41_handshake.md R152). -/
def State.hsHello (s : State) : State :=
  (s.wrote [Cmd.abort, s.par.cmdReset, Cmd.version]).gotoHs .zeroWindow

/-- `t0 <- Now()`, the last of the loop's registers (41_handshake.md R152). -/
def State.hsClock (s : State) : State := (s.setHs { s.hs with t0 := s.now }).gotoHs .top

/-- `fail(e)`: the reset sequence if it was requested, then the port is closed (41_handshake.md R160). -/
def State.hsFail (s : State) (e : Code) : State :=
  if s.hs.triggerReset then s.gotoHs .dtrLow else s.gotoHs (.close e)

/-- The time test at the top of an iteration (41_handshake.md R153, R155). -/
def State.hsTop (s : State) : State :=
  if Config.syncTimeout ≤ s.now - s.hs.t0 then s.hsFail .errorReadingVersion else s.gotoHs .poll

/-- An empty poll: the kick after seven of them while nothing has been received (41_handshake.md R154). -/
def State.hsEmptyPoll (s : State) : State :=
  if s.hs.nSeen = 0 then
    if Config.kickPolls ≤ s.hs.nEmpty + 1 then
      (s.setHs { s.hs with nEmpty := s.hs.nEmpty + 1 }).goto (.mark [Cmd.version])
    else (s.setHs { s.hs with nEmpty := s.hs.nEmpty + 1 }).gotoHs .top
  else s.gotoHs .top

/-- The kick has been written (41_handshake.md R154). -/
def State.hsKicked (s : State) : State := (s.setHs { s.hs with nEmpty := 0 }).gotoHs .top

/-- A byte is received and counted (41_handshake.md R153). -/
def State.hsCount (s : State) (b : Byte) : State :=
  (s.setHs { s.hs with nSeen := s.hs.nSeen + 1 }).gotoHs (.shift b)

/-- What a poll of the sync loop returned: a byte, or none (41_handshake.md R153). -/
def State.hsPolled (s : State) (bs : List Byte) : State :=
  match bs with
  | [] => s.hsEmptyPoll
  | b :: _ => s.hsCount b

/-- The byte is shifted into the window (41_handshake.md R153). -/
def State.hsShift (s : State) (b : Byte) : State :=
  (s.setHs { s.hs with vwin := s.hs.vwin.push b }).gotoHs .look

/-- The second assignment of the version (41_handshake.md R156). -/
def State.hsMinor (s : State) (m : BitVec 4) (dot : Bool) : State :=
  (s.setFw { s.fw with minor := m }).gotoHs (.control dot)

/-- The third: a dot sets `fullControlMod` where `FCM_DOT` says so (41_handshake.md R156); the purges follow
(R157). -/
def State.hsControl (s : State) (dot : Bool) : State :=
  (s.setFw { s.fw with fullControlMod := dot && s.par.fcmDot }).gotoHs .purge1

/-- The byte completed no match (41_handshake.md R153, R155). -/
def State.hsNoMatch (s : State) : State :=
  if Config.syncMaxBytes < s.hs.nSeen then s.hsFail .malformedVersion else s.gotoHs .top

/-- The first of the three assignments of the capability bytes (41_handshake.md R158). -/
def State.hsFlags1 (s : State) (f1 f2 build : Byte) : State :=
  (s.setFw { s.fw with deviceFlags1 := f1 }).gotoHs (.flags2 f2 build)

/-- The second. -/
def State.hsFlags2 (s : State) (f2 build : Byte) : State :=
  (s.setFw { s.fw with deviceFlags2 := f2 }).gotoHs (.build build)

/-- The third. -/
def State.hsBuild (s : State) (build : Byte) : State :=
  (s.setFw { s.fw with buildNumber := build }).gotoHs .check

/-- Whether the feature query is sent (41_handshake.md R158). -/
def State.hsQuery (s : State) : State :=
  if featuresDue s.fw then s.goto (.pause [Cmd.features]) else s.hsFlags1 0 0 0

/-- The feature query's code (41_handshake.md R158). -/
def State.afterFeatures (s : State) (c : Code) : State :=
  if c = .ok then s.gotoHs .featBytes else s.gotoHs (.close c)

/-- The three capability bytes (41_handshake.md R158). -/
def State.hsFeatures (s : State) (fs : List Byte) : State :=
  match fs with
  | [f1, f2, build] => s.hsFlags1 f1 f2 build
  | _ => s.gotoHs (.close .errorReadingVersion)

/-- The firmware check (41_handshake.md R159). -/
def State.hsCheck (s : State) : State :=
  if firmwareAccepted s.fw s.par then s.gotoHs .normalRd else s.gotoHs (.close .oldFirmware)

/-- One step inside `openPort` other than a look at the window of the sync loop (41_handshake.md R151 to
R160): one call, or one register update. -/
def State.hsStep (s : State) : HsStep → Answer
  | .open => .next s.hsOpen
  | .configure => s.onChannel s.hsConfigure
  | .drop => s.onChannel (s.closeSession.goto (.exit .configError))
  | .syncRd => s.onChannel ((s.setReadTimeout s.par.syncRd).gotoHs .syncWr)
  | .syncWr => s.onChannel ((s.setWriteTimeout s.par.syncWr).gotoHs .enter)
  | .enter => .next ((s.setSt .syncing).gotoHs .greet)
  | .greet => .next (s.commandMark Cmd.version (.hs .hello))
  | .hello => s.onChannel s.hsHello
  | .zeroWindow => .next ((s.setHs { s.hs with vwin := Window.zero }).gotoHs .zeroSeen)
  | .zeroSeen => .next ((s.setHs { s.hs with nSeen := 0 }).gotoHs .zeroEmpty)
  | .zeroEmpty => .next ((s.setHs { s.hs with nEmpty := 0 }).gotoHs .clock)
  | .clock => .next s.hsClock
  | .top => .next s.hsTop
  | .poll => s.onChannel (s.readTo 1 fun bs => .hs (.byte bs))
  | .byte bs => .next (s.hsPolled bs)
  | .shift b => .next (s.hsShift b)
  | .look => .next s.hsNoMatch
  | .kicked => .next s.hsKicked
  | .minor m dot => .next (s.hsMinor m dot)
  | .control dot => .next (s.hsControl dot)
  | .purge1 => s.onChannel (s.purge.gotoHs .settle)
  | .settle => .next ((s.pause Config.purgeSettle).gotoHs .purge2)
  | .purge2 => s.onChannel (s.purge.gotoHs .query)
  | .query => .next s.hsQuery
  | .featBytes => s.onChannel (s.readTo 3 fun fs => .hs (.features fs))
  | .features fs => .next (s.hsFeatures fs)
  | .flags2 f2 build => .next (s.hsFlags2 f2 build)
  | .build build => .next (s.hsBuild build)
  | .check => .next s.hsCheck
  | .normalRd => s.onChannel ((s.setReadTimeout s.par.normalRd).gotoHs .normalWr)
  | .normalWr => s.onChannel ((s.setWriteTimeout s.par.normalWr).gotoHs .ready)
  | .ready => .next ((s.setSt .ready).goto (.exit .ok))
  | .dtrLow => s.onChannel ((s.setDTR false).gotoHs .rtsLow)
  | .rtsLow => s.onChannel ((s.setRTS false).gotoHs .settleLow)
  | .settleLow => .next ((s.pause Config.resetSettle).gotoHs .dtrHigh)
  | .dtrHigh => s.onChannel ((s.setDTR true).gotoHs .rtsHigh)
  | .rtsHigh => s.onChannel ((s.setRTS true).gotoHs .settleHigh)
  | .settleHigh => .next ((s.pause Config.resetSettle).gotoHs (.close .errorReadingVersion))
  | .close c => s.onChannel (s.closeSession.gotoHs (.closed c))
  | .closed c => .next ((s.setSt .closed).goto (.exit c))

/-! ### closePort -/

/-- `closePort` as a call: nothing in `Closed`; `enableReading(false)` first, its result not examined;
no meaning during a handshake or a stream (41_handshake.md R162). -/
def State.startClosePort (s : State) : Answer :=
  match s.st with
  | .closed => .next (s.goto .idle)
  | .ready | .readEnabled | .writeEnabled => .next ((s.push .closing).goto (.pause [Cmd.disable]))
  | .syncing | .streaming => .refused .wrongState

/-- The Transport is released; `closePort` has no result code of its own (41_handshake.md R162). -/
def State.finishClose (s : State) : Answer := s.onChannel (s.closeSession.goto .shut)

/-- `st <- Closed` (41_handshake.md R162). -/
def State.shut (s : State) : State := (s.setSt .closed).goto .idle

end Sys2Proof.Machine
end

