-- ==== Sys2Proof/Machine/Streaming.lean ====
section
/-! DEFINITION. Track read: the streamed read with its abort protocol, and the non-HD read with its
framing as a parameter (43_streaming_read.md). -/

namespace Sys2Proof.Machine

/-- The streaming registers replaced. -/
def State.setStr (s : State) (str : Stream) : State := { s with str := str }

/-- The capture replaced. -/
def State.setCap (s : State) (cap : Capture) : State := { s with cap := cap }

/-- The non-HD read's registers replaced. -/
def State.setBlk (s : State) (blk : Block) : State := { s with blk := blk }

/-- A new capture of `CAP` bytes, all 0, for the density in force (43_streaming_read.md R200,
46_device_adapter.md R284). -/
def State.newCapture (s : State) : Capture :=
  { buf := [], size := s.par.capBytes s.isHDMode, bitLength := 0 }

/-! ### Entry (43_streaming_read.md R200, R201) -/

/-- `readTrack` as a call: refused outside `ReadEnabled`; the buffer it is given is an empty one; the path
forks on `isHDMode`. -/
def State.startReadTrack (s : State) : Answer :=
  (((s.setCap s.newCapture).setStr { s.str with startTries := 0 }).setBlk
    { got := [], empty := 0 }).startCommand (s.st == .readEnabled)
    [if s.isHDMode then Cmd.readStream else Cmd.readTrack]

/-- `{`: one attempt of the stream-start command (43_streaming_read.md R200). -/
def execReadStream (s : State) : Answer :=
  s.command (s.st == .readEnabled) ((s.push .streamStart).runCommand Cmd.readStream)

/-- `abortRequested <- false` (43_streaming_read.md R210), and on. -/
def State.clearAbort (s : State) (k : StreamStep) : State :=
  { s with abortRequested := false, phase := .stream k }

/-- The code of an attempt: `OK` leads to `Streaming`; a failure is retried once, and the second returned
with no bits (43_streaming_read.md R200, R210). -/
def State.afterStreamStart (s : State) (c : Code) : State :=
  if c = .ok then s.clearAbort .enter
  else (s.setStr { s.str with startTries := s.str.startTries + 1 }).goto
    (if s.str.startTries + 1 < Config.streamStartTries then .pause [Cmd.readStream] else .length 0 c)

/-- `bitLength <- n`, and then the return of the code. -/
def State.setLength (s : State) (n : Nat) (c : Code) : State :=
  (s.setCap { s.cap with bitLength := n }).goto (.exit c)

/-! ### The loop (43_streaming_read.md R202) -/

/-- Continue inside the streamed read. -/
def State.gotoStream (s : State) (k : StreamStep) : State := s.goto (.stream k)

/-- The top of an iteration: the only place where `abortRequested` is polled. The poll waits while
`SendAbort` runs. -/
def State.streamTop (s : State) : State :=
  if s.abortRequested && !s.str.abortSent then (s.push .abortPoll).goto (.mark [Cmd.abort])
  else s.gotoStream .poll

/-- The bits written so far. -/
def State.written (s : State) : Nat := s.str.wcur.linear

/-- `stalled`: `st <- ReadEnabled`, and the disk's presence is checked again (43_streaming_read.md R208). -/
def State.streamStalled (s : State) : State :=
  ((s.setSt .readEnabled).push .stalled).goto (.pause [Cmd.checkDisk])

/-- The check has returned; whatever its code, the read returns `ReadResponseFailed` and the bits written
(43_streaming_read.md R208). -/
def State.afterRecheck (s : State) : State := s.setLength s.written .readResponseFailed

/-- An empty poll. -/
def State.streamEmpty (s : State) : State :=
  (s.setStr { s.str with nStall := s.str.nStall + 1 }).gotoStream
    (if Config.stallPolls ≤ s.str.nStall + 1 then .stalled else .top)

/-- One poll of up to 64 bytes. -/
def State.streamPoll (s : State) : Answer :=
  s.onChannel (s.readTo Config.streamChunk fun bs => .stream (.chunk bs))

/-- `chunk` replaced, and on. -/
def State.setChunk (s : State) (bs : List Byte) (k : StreamStep) : State :=
  (s.setStr { s.str with chunk := bs }).gotoStream k

/-- What a poll returned: an empty poll, or a chunk. -/
def State.streamGot (s : State) : State :=
  match s.str.chunk with
  | [] => s.streamEmpty
  | _ => (s.setStr { s.str with nStall := 0 }).gotoStream .bytes

/-- The next byte of the chunk is taken off it; after the last the iteration is over. -/
def State.streamBytes (s : State) : State :=
  match s.str.chunk with
  | [] => s.gotoStream .top
  | b :: rest => s.setChunk rest (.byte b)

/-- A byte after the abort byte was sent goes through the echo window (43_streaming_read.md R206). -/
def State.echoByte (s : State) (b : Byte) : State :=
  (s.setStr { s.str with awin := s.str.awin.push b }).gotoStream .echo

/-! ### The rows of the stream -/

/-- The capture bits of a data byte, or those that are left of them: a full buffer sends the abort byte
and drops them, else the first is written (43_streaming_read.md R203, 45_mfm_decoder.md R237). -/
def State.nextSymbol (s : State) (xs : List Bool) : State :=
  if s.written = 8 * s.cap.size then s.goto (.mark [Cmd.abort])
  else match xs with
    | [] => s.gotoStream .bytes
    | x :: rest =>
      (s.setCap { s.cap with
        buf := (writeBit s.cap.size s.cap.buf s.str.wcur x).1 }).gotoStream (.advance rest)

/-- The cursor advances past the bit written, which ends `WriteBit` (45_mfm_decoder.md R237). -/
def State.advanceCursor (s : State) (xs : List Bool) : State :=
  (s.setStr { s.str with wcur := s.str.wcur.written s.cap.size }).gotoStream (.symbols xs)

/-- Whether a byte of the chunk is looked at. -/
def Phase.isStreamByte : Phase → Bool
  | .stream (.byte _) => true
  | _ => false

/-- `DataByte(b)`: a stream data byte before the abort byte was sent; its first capture bit is written, or
the buffer is found full (43_streaming_read.md R203). -/
def execStreamData (b : Byte) (s : State) : Answer :=
  if s.st = .streaming ∧ s.phase.isStreamByte = true ∧ s.str.abortSent = false then
    .next (s.nextSymbol (streamBits s.par b))
  else .refused .noContext

/-- `x`: `SendAbort()`; no pause, no response, the count not examined (43_streaming_read.md R205). -/
def execAbort (s : State) : Answer :=
  s.command (s.st == .streaming) ((s.wrote [Cmd.abort]).goto (.stream .aborted))

/-- `abortSent <- true`, after the write (43_streaming_read.md R205); a waiting poll goes on with
`userAbort` (R202), a data byte that filled the buffer with the rest of its chunk. -/
def State.streamAborted (s : State) : State :=
  let s1 := s.setStr { s.str with abortSent := true }
  match s1.frames with
  | .abortPoll :: rest => (s1.pop rest).gotoStream .user
  | _ => s1.gotoStream .bytes

/-- `finished`: the first of its updates (43_streaming_read.md R207). -/
def State.streamFinished (s : State) : State :=
  (s.setCap { s.cap with bitLength := s.written }).gotoStream .leaveFlag

/-- The last of them, and the code (43_streaming_read.md R207). -/
def State.streamLeft (s : State) : State :=
  (s.setSt .readEnabled).goto (.exit (if s.str.userAbort then .cancelled else .ok))

/-- The abort echo, after the abort byte was sent (43_streaming_read.md R206, R207). -/
def execAbortEcho (s : State) : Answer :=
  if s.st = .streaming ∧ s.phase = .stream .echo ∧ s.str.abortSent = true then .next s.streamFinished
  else .refused .noContext

/-! ### The steps -/

/-- One step inside the streamed read other than a look at a byte or at the echo window
(43_streaming_read.md R200 to R208): one call, or one register update. -/
def State.streamStep (s : State) : StreamStep → Answer
  | .enter => .next ((s.setSt .streaming).gotoStream .initWindow)
  | .initWindow => .next ((s.setStr { s.str with awin := Window.zero }).gotoStream .initStall)
  | .initStall => .next ((s.setStr { s.str with nStall := 0 }).gotoStream .initSent)
  | .initSent => .next ((s.setStr { s.str with abortSent := false }).gotoStream .initUser)
  | .initUser => .next ((s.setStr { s.str with userAbort := false }).gotoStream .initCursor)
  | .initCursor => .next ((s.setStr { s.str with wcur := { pos := 0, bit := 0 } }).gotoStream .top)
  | .top => .next s.streamTop
  | .poll => s.streamPoll
  | .chunk bs => .next (s.setChunk bs .got)
  | .got => .next s.streamGot
  | .bytes => .next s.streamBytes
  | .byte b => .next (s.echoByte b)
  | .echo => .next (s.gotoStream .bytes)
  | .symbols xs => .next (s.nextSymbol xs)
  | .advance xs => .next (s.advanceCursor xs)
  | .aborted => .next s.streamAborted
  | .user => .next ((s.setStr { s.str with userAbort := true }).gotoStream .poll)
  | .leaveFlag => .next (s.clearAbort .leaveState)
  | .leaveState => .next s.streamLeft
  | .stalled => .next (s.clearAbort .stalledState)
  | .stalledState => .next s.streamStalled

/-! ### The non-HD read (43_streaming_read.md R212; notes/assumptions/12) -/

/-- `<`: the command byte is written and the block is read; `st` does not pass through `Streaming`. -/
def execReadTrack (s : State) : Answer :=
  s.command (s.st == .readEnabled) (s.sendCommand [Cmd.readTrack] .block)

/-- The block's bytes so far, after one more poll. -/
def Block.poll (b : Block) (got : List Byte) : Block :=
  match got with
  | [] => { b with empty := b.empty + 1 }
  | _ => { got := b.got ++ got, empty := 0 }

/-- The framing's verdict on the block so far: more, or the way it ends and the capture bits. -/
def State.blockVerdict (s : State) (v : BlockVerdict) : State :=
  match v with
  | .more => s.goto .block
  | .done e bits =>
    let w := fillBits s.cap.size bits [] { pos := 0, bit := 0 }
    (s.setCap { s.cap with buf := w.1 }).goto (.length w.2.linear e.code)

/-- One poll of the non-HD read. -/
def State.blockPoll (s : State) : Answer := s.onChannel (s.readTo 1 .framing)

/-- What the poll returned goes to the block. -/
def State.blockFraming (s : State) (bs : List Byte) : State := (s.setBlk (s.blk.poll bs)).goto .framed

/-- The framing judges the block. -/
def State.blockFramed (s : State) : State :=
  s.blockVerdict (Config.blockVerdict s.blk.got s.blk.empty)

end Sys2Proof.Machine
end

