-- ==== Sys2Proof/Machine/Writing.lean ====
section
/-! DEFINITION. Track write and its status (44_track_write.md). -/

namespace Sys2Proof.Machine

/-- The operands of a track write replaced. -/
def State.setWr (s : State) (w : WriteBuf) : State := { s with wr := w }

/-- What stands before the command of a track write: the cached write protection returns its code, and
the precompensated write's encoding refuses an illegal run (44_track_write.md R220, R222). -/
def State.guardWrite (s : State) (w : WriteBuf) (precomp : Bool) (a : Answer) : Answer :=
  if s.writeProtected then .next (s.ret .writeProtected)
  else if precomp && !w.transitions.all legalRun then .refused .badOperand
  else a

/-- `writeTrack` as a call (44_track_write.md R220): no pause for a write that its guard ends. The bits that
`nbits` counts beyond the bytes of `mfm` are free (`WriteBuf.bits`; notes/assumptions/28). Which of `}` and `>` the call sends is its operand
`precomp`, which the caller sets: R220 always sends `}`, 30_encoding.md R110 allows both, and no rule says
what decides (DESIGN CHOICE; notes/assumptions/13). -/
def State.startWriteTrack (s : State) (precomp : Bool) (mfm : List Byte) (nbits : Nat) : Answer :=
  if s.st ≠ .writeEnabled then .refused .wrongState
  else
    let w := { mfm := mfm, nbits := nbits }
    s.guardWrite w precomp
      (.next ((s.setWr w).goto (.pause [if precomp then Cmd.writePrecomp else Cmd.writeTrack])))

/-- `}`: the precompensated write up to its command's response: the cached write protection first, then
the encoding, which refuses an illegal run, then the command (44_track_write.md R220, R222). -/
def execWritePrecomp (s : State) : Answer :=
  match s.commandRefusal (s.st == .writeEnabled) with
  | some r => .refused r
  | none =>
    s.guardWrite s.wr true (.next ((s.push (.payload true)).runCommand Cmd.writePrecomp))

/-- `>`: the plain write, whose payload is the parameter's (44_track_write.md R220, 93 U21;
notes/assumptions/13). -/
def execWriteTrack (s : State) : Answer :=
  s.command (s.st == .writeEnabled)
    (if s.writeProtected then s.ret .writeProtected
     else (s.push (.payload false)).runCommand Cmd.writeTrack)

/-- The code of the write command: only `OK` sends the payload (44_track_write.md R220). -/
def State.afterWriteCommand (s : State) (precomp : Bool) (c : Code) : State :=
  if c = .ok then s.goto (.payload precomp) else s.ret c

/-- The payload is sent, framed; its count is not examined; then the status byte is read
(44_track_write.md R220, R224). -/
def State.writePayload (s : State) (precomp : Bool) : Answer :=
  s.onChannel ((s.wrote (framed s.isHDMode (s.wr.payload precomp))).goto (.await .rspW))

/-! ### The final status byte (44_track_write.md R226) -/

/-- `'1'`: a clean write. -/
def execRspwClean (s : State) : Answer := s.answer .rspW (s.ret .ok)

/-- `'X'`: timeout. -/
def execRspwTimeout (s : State) : Answer := s.answer .rspW (s.ret .writeTimeout)

/-- `'Y'`: framing error. -/
def execRspwFraming (s : State) : Answer := s.answer .rspW (s.ret .framingError)

/-- `'Z'`: overrun. -/
def execRspwOverrun (s : State) : Answer := s.answer .rspW (s.ret .serialOverrun)

/-- Any other byte. -/
def execRspwOther (_b : Byte) (s : State) : Answer := s.answer .rspW (s.ret .statusError)

end Sys2Proof.Machine
end

