-- ==== Sys2Proof/Machine/Responses.lean ====
section
/-! DEFINITION. What a response byte does in the exchange that awaits it (42_commands.md R170, R176,
R182, R183, R184; 30_encoding.md R95). A byte is read before it is judged; the code it gives goes to
the operation that sent the command. -/

namespace Sys2Proof.Machine

/-! ### The command/response primitive (42_commands.md R170) -/

/-- `'1'`. -/
def execRsp1Ok (s : State) : Answer := s.answer .rsp1 (s.ret .ok)

/-- `'0'`. -/
def execRsp1Error (s : State) : Answer := s.answer .rsp1 (s.ret .error)

/-- Anything else. -/
def execRsp1Other (_b : Byte) (s : State) : Answer := s.answer .rsp1 (s.ret .statusError)

/-! ### Track selection (42_commands.md R176) -/

/-- `'1'`: moved. -/
def execRsptMoved (s : State) : Answer := s.answer .rspT (s.ret .ok)

/-- `'2'`: already there. -/
def execRsptAlready (s : State) : Answer := s.answer .rspT (s.ret .ok)

/-- `'0'`. -/
def execRsptFail (s : State) : Answer := s.answer .rspT (s.ret .selectTrackError)

/-- Anything else. -/
def execRsptOther (_b : Byte) (s : State) : Answer := s.answer .rspT (s.ret .statusError)

/-! ### Check disk: both bytes are read before either is judged (42_commands.md R182, D24) -/

/-- The presence byte is held until the second byte is read. -/
def State.holdPresence (s : State) (p : Presence) : State := s.goto (.await (.diskProtect p))

/-- `'#'`: no disk. -/
def execRsp2NoDisk (s : State) : Answer := s.answer .diskPresence (s.holdPresence .absent)

/-- `'1'`: a disk is present. -/
def execRsp2Present (s : State) : Answer := s.answer .diskPresence (s.holdPresence .present)

/-- Another presence byte. -/
def execRsp2B0Other (_b : Byte) (s : State) : Answer := s.answer .diskPresence (s.holdPresence .other)

/-- `diskPresent` replaced. -/
def State.setDiskPresent (s : State) (x : Bool) : State := { s with diskPresent := x }

/-- `writeProtected <- prot`, and then the return of the code (42_commands.md R182, R183). -/
def State.setProtect (s : State) (prot : Bool) (c : Code) : State :=
  { s with writeProtected := prot, phase := .exit c }

/-- `checkDisk(true)` with both bytes read: an illegal first byte leaves the cache; else `diskPresent` is
assigned, then `writeProtected`, then the code returned (42_commands.md R182). -/
def State.finishCheckDisk (s : State) (first : Presence) (prot : Bool) : State :=
  match first with
  | .other => s.ret .statusError
  | .present => (s.setDiskPresent true).goto (.protect prot .ok)
  | .absent => (s.setDiskPresent false).goto (.protect prot .noDiskInDrive)

/-- The write-protect byte, of `checkDisk` or of `checkWriteProtect` (42_commands.md R182, R183). -/
def State.protectByte (s : State) (prot : Bool) : Answer :=
  match s.phase with
  | .judge (.diskProtect first) _ => .next (s.finishCheckDisk first prot)
  | .judge .wpByte _ => .next (s.setProtect prot .ok)
  | _ => .refused .noContext

/-- `'1'`: write protected. -/
def execRsp2Prot1 (s : State) : Answer := s.protectByte true

/-- `'#'`: write protected. -/
def execRsp2ProtHash (s : State) : Answer := s.protectByte true

/-- Anything else: not write protected. -/
def execRsp2B1Other (_b : Byte) (s : State) : Answer := s.protectByte false

/-! ### Density (42_commands.md R184) -/

/-- `isHDMode <- hd`, and then the return of `OK` (42_commands.md R184). -/
def State.setDensity (s : State) (hd : Bool) : State := { s with isHDMode := hd, phase := .exit .ok }

/-- `'H'`. -/
def execDensHd (s : State) : Answer := s.answer .density (s.setDensity true)

/-- `'D'`. -/
def execDensDd (s : State) : Answer := s.answer .density (s.setDensity false)

/-- Anything else: the flag is left. -/
def execDensOther (_b : Byte) (s : State) : Answer := s.answer .density (s.ret .statusError)

end Sys2Proof.Machine
end

