-- ==== Sys2Proof/Machine/Decoder.lean ====
section
/-! DEFINITION. The MFM decoder: the scan, the actions of the three sync constants, the reassembler and
the end of the scan (45_mfm_decoder.md sections 5 to 7). -/

namespace Sys2Proof.Machine

/-- The decoder's registers replaced. -/
def State.setDec (s : State) (d : Decoder) : State := { s with dec := d }

/-! ### Gap samples (45_mfm_decoder.md R248) -/

/-- `GapSample(s)`. -/
def Decoder.gapSample (d : Decoder) (s : Nat) : Decoder :=
  match d.prevEnd with
  | none => d
  | some e =>
    if e ≤ s then
      { d with gapTotal := d.gapTotal + (s - e) / 16, numGaps := d.numGaps + 1, prevEnd := none }
    else { d with prevEnd := none }

/-! ### Sector insertion (45_mfm_decoder.md R255) -/

/-- `Insert(R, bytes, err)`: numbers above 22 are discarded; an existing copy stays unless the new one
has strictly fewer errors. -/
def Track.insertSector (trk : Track) (r : Nat) (bytes : List Byte) (err : Half) : Track :=
  if Config.maxSector < r then trk
  else match trk.get (r - 1) with
    | none => trk.set (r - 1) { bytes := bytes, errorCount := err }
    | some old =>
      if err < old.errorCount then trk.set (r - 1) { bytes := bytes, errorCount := err } else trk

/-! ### The actions -/

/-- `OnIAM(s)` (45_mfm_decoder.md R245). -/
def Decoder.onIam (d : Decoder) : Decoder := { d with prevEnd := none }

/-- A header record latched: clamped sector number, error count (45_mfm_decoder.md R246 to R250). -/
def Decoder.latch (d : Decoder) (rec : List Byte) : Decoder :=
  let r := max 1 (rec.getD 6 0).toNat
  { d with
    hdr := { c := (rec.getD 4 0).toNat, h := (rec.getD 5 0).toNat, r := r, n := (rec.getD 7 0).toNat }
    hdrErr := headerErrors rec d.cylinder d.head
    headerFound := true, lastSector := r }

/-- `OnIDAM(s)` (45_mfm_decoder.md R246). -/
def Decoder.onIdam (d : Decoder) (cap : Capture) (s : Nat) : Decoder :=
  (d.gapSample s).latch (cap.extract s 10)

/-- `Synthesize()` (45_mfm_decoder.md R252). -/
def Decoder.synthesize (d : Decoder) (p : Params) : Decoder :=
  { d with
    hdr := { c := d.cylinder, h := d.head, r := d.lastSector + 1, n := 2 }
    hdrErr := p.synthErr, headerFound := true, lastSector := d.lastSector + 1 }

/-- A data record for the latched header, at `s` (45_mfm_decoder.md R251, R253 to R256). -/
def Decoder.dataRecord (d : Decoder) (cap : Capture) (s : Nat) : Decoder :=
  if Config.sizeCodeMax < d.hdr.n then { d with headerFound := false, prevEnd := none }
  else
    let size := sectorSize d.hdr.n
    let rec' := cap.extract s (4 + size + 2)
    { d with
      trk := d.trk.insertSector d.hdr.r ((rec'.drop 4).take size)
        (d.hdrErr + errorIf (!crcValid rec' (4 + size)))
      prevEnd := some (s + 16 * (4 + size + 2))
      headerFound := false }

/-- `OnDAM(s)` (45_mfm_decoder.md R251). -/
def Decoder.onDam (d : Decoder) (p : Params) (cap : Capture) (s : Nat) : Decoder :=
  if d.headerFound then d.dataRecord cap s else (d.synthesize p).dataRecord cap s

/-! ### The rows -/

/-- The start of the window, `SR_WIDTH - 1` bits before the cursor (45_mfm_decoder.md R240). -/
def Decoder.start (d : Decoder) : Nat := d.t - (Config.srWidth - 1)

/-- Whether the shift at the cursor completes a window (45_mfm_decoder.md R240). -/
def Decoder.full (d : Decoder) : Bool := decide (Config.srWidth - 1 ≤ d.t)

/-- Whether a window is being tested: the scan runs and the register is full. -/
def State.testing (s : State) : Bool := s.phase == .scan && s.dec.full

/-- A match's effect on the decoder. -/
def State.onMatch (s : State) (d : Decoder) : Answer :=
  if s.testing then .next (s.setDec d) else .refused .noContext

/-- An index address mark. -/
def execSyncIam (s : State) : Answer := s.onMatch s.dec.onIam

/-- An ID address mark. -/
def execSyncIdam (s : State) : Answer := s.onMatch (s.dec.onIdam s.cap s.dec.start)

/-- A data address mark. -/
def execSyncDam (s : State) : Answer := s.onMatch (s.dec.onDam s.par s.cap s.dec.start)

/-! ### The scan (45_mfm_decoder.md R240, 10_state.md R36) -/

/-- The register after one more capture bit; the top bit is discarded. -/
def shiftIn (sr : Sync) (x : Bool) : Sync := (sr <<< 1) ||| (if x then 1 else 0)

/-- One shift of the register: the bit at the cursor comes in. -/
def Decoder.shift (d : Decoder) (cap : Capture) : Decoder :=
  { d with sr := shiftIn d.sr (cap.capBit d.t) }

/-- The cursor advances by exactly 1. -/
def Decoder.next (d : Decoder) : Decoder := { d with t := d.t + 1 }

/-- The shifts a scan makes: each of the `bitLength` windows of the circle is completed once; an empty
capture has none. -/
def scanLength (cap : Capture) : Nat :=
  if cap.bitLength = 0 then 0 else cap.bitLength + (Config.srWidth - 1)

/-- Whether all shifts have been made. -/
def scanOver (d : Decoder) (cap : Capture) : Bool := decide (scanLength cap ≤ d.t)

/-! ### The end of the scan (45_mfm_decoder.md R257, R258, R259) -/

/-- A filler entry. -/
def Sector.filler : Sector :=
  { bytes := List.replicate Config.fillerSize 0, errorCount := Config.errSentinel }

/-- Fillers for the `n` keys from `k` on that are missing. -/
def Track.fill : Nat → Nat → Track → Track
  | 0, _, trk => trk
  | n + 1, k, trk =>
    Track.fill n (k + 1)
      (match trk.get k with
       | none => trk.set k Sector.filler
       | some _ => trk)

/-- `Finish()`. -/
def Decoder.finish (d : Decoder) : Decoder :=
  let trk := Track.fill d.expected 0 d.trk
  { d with
    trk := trk, nonstandardTimings := gapFlag d.gapTotal d.numGaps
    sectorsWithErrors := countErrors trk }

/-! ### decode as a pure function (45_mfm_decoder.md R235, R240) -/

/-- The action of a window, if it is a sync constant. -/
def Decoder.act (d : Decoder) (p : Params) (cap : Capture) : Decoder :=
  match decodeWindow p.sync d.sr with
  | .instr .syncIam => d.onIam
  | .instr .syncIdam => d.onIdam cap d.start
  | .instr .syncDam => d.onDam p cap d.start
  | _ => d

/-- One iteration of the scan loop. -/
def Decoder.iterate (d : Decoder) (p : Params) (cap : Capture) : Decoder :=
  if d.full then ((d.shift cap).act p cap).next else (d.shift cap).next

/-- `n` iterations of the scan loop. -/
def Decoder.scan (p : Params) (cap : Capture) : Nat → Decoder → Decoder
  | 0, d => d
  | n + 1, d => Decoder.scan p cap n (d.iterate p cap)

/-- `decode(cap, isHD, cylinder, head, expected)`: the decoder at the end of the call, its outputs in
`trk`, `nonstandardTimings` and `sectorsWithErrors`. -/
def decodeTrack (p : Params) (cap : Capture) (isHD : Bool) (cylinder head expected : Nat) : Decoder :=
  ((Decoder.initial isHD cylinder head expected).scan p cap (scanLength cap)).finish

/-! ### decode and the bit operations as calls -/

/-- `decode` on the machine's capture; a bit length beyond the buffer is refused (93 U10). A cylinder
above 83 or a head above 1, outside the operand ranges of 45_mfm_decoder.md R235, is decoded like any
other (DESIGN CHOICE; notes/assumptions/35). -/
def State.startDecode (s : State) (isHD : Bool) (cylinder head expected : Nat) : Answer :=
  if 8 * s.cap.size < s.cap.bitLength then .refused .captureBounds
  else .next ((s.setDec (Decoder.initial isHD cylinder head expected)).goto .scan)

/-- The value a boundary operation hands to its caller. -/
def State.setOut (s : State) (o : Out) : State := { s with out := o }

/-- A capture supplied by the caller of `decode` (45_mfm_decoder.md R235). -/
def State.startLoadCapture (s : State) (raw : List Byte) (bitLength : Nat) : Answer :=
  if 8 * raw.length < bitLength then .refused .captureBounds
  else .next ((s.setCap { buf := Memory.ofBytes 0 raw, size := raw.length, bitLength := bitLength }).goto
    .idle)

/-- `ReadBit` on the caller's buffer: refused past its end (45_mfm_decoder.md R238); a cursor's bit is
0 to 7 (R236). -/
def State.startReadBit (s : State) (bs : List Byte) (c : Cursor) : Answer :=
  if 8 ≤ c.bit then .refused .badOperand
  else match readBit bs.length (Memory.ofBytes 0 bs) c with
  | none => .refused .pastBuffer
  | some (x, c') => .next ((s.setOut (.bit x c')).goto .idle)

/-- `WriteBit` on the caller's buffer, which is handed back (45_mfm_decoder.md R237); a cursor's bit is
0 to 7 (R236). The machine's capture is written by the read that produces it only (20_memory.md R70). -/
def State.startWriteBit (s : State) (bs : List Byte) (c : Cursor) (x : Bool) : Answer :=
  if 8 ≤ c.bit then .refused .badOperand
  else
    let w := writeBit bs.length (Memory.ofBytes 0 bs) c x
    .next ((s.setOut (.buffer (w.1.toBytes bs.length) w.2)).goto .idle)

/-- `Extract(s, n)` on the capture (45_mfm_decoder.md R243): `n` bytes from every capture; a bit that the
capture does not have is free (DESIGN CHOICE; notes/assumptions/38). -/
def State.startExtract (s : State) (at' n : Nat) : Answer :=
  .next ((s.setOut (.bytes (oddBytes s.cap.askedBit at' n))).goto .idle)

/-- `Crc16(bytes)` (45_mfm_decoder.md R242). -/
def State.startCrc16 (s : State) (bs : List Byte) : Answer :=
  .next ((s.setOut (.crc (crc16 bs))).goto .idle)

end Sys2Proof.Machine
end

