-- ==== Sys2Proof/Machine/Adapter.lean ====
section
/-! DEFINITION. The Device Adapter as far as the spec gives it: attach and detach, seek with its retry
and calibration policy, sector service, the read-only upward interface (46_device_adapter.md). It is
no engine operation and writes neither `lastError` nor `lastCommand` (notes/assumptions/24). -/

namespace Sys2Proof.Machine

/-- The adapter's registers replaced. -/
def State.setAd (s : State) (ad : Adapter) : State := { s with ad := ad }

/-- An adapter operation needs a device in the slot (46_device_adapter.md R281). -/
def State.onDevice (s : State) (a : Answer) : Answer :=
  if s.ad.attached then a else .refused .notAttached

/-! ### Attach and detach (46_device_adapter.md R281, R282) -/

/-- A Protocol Session is created: the values of 70_reset_and_hazards.md R340, the unspecified ones
drawn from the environment (notes/assumptions/20). -/
def State.createSession (s : State) : State :=
  { s with
    st := .closed, fw := s.cur.draw.fw, lastError := .ok, lastCommand := 0x00
    diskPresent := s.cur.draw.diskPresent, writeProtected := s.cur.draw.writeProtected
    isHDMode := s.cur.draw.isHDMode, abortRequested := false
    tp := Transport.absent s.tp.line
    ad := { attached := false, curTrack := s.cur.draw.curTrack, cache := [], sel := s.cur.draw.sel } }

/-- `attach`: a session is created and opened; a slot that has a device, or whose session is open, has
none created (46_device_adapter.md R281). -/
def State.startAttach (s : State) (path : String) (ctsFlow triggerReset : Bool) : Answer :=
  if s.ad.attached then .refused .wrongState
  else if s.st ≠ .closed then .refused .wrongState
  else (s.createSession.push .attachOpen).startOpenPort path ctsFlow triggerReset

/-- The result of `openPort`: on `OK` the geometry is negotiated, on any other code the slot stays
without a device (46_device_adapter.md R281). The source does not say whether the adapter rewinds or
enables the motor; here it does neither (DESIGN CHOICE; notes/assumptions/24). -/
def State.afterAttachOpen (s : State) (c : Code) : State :=
  if c = .ok then
    ((s.setAd { s.ad with attached := true }).push .attachDensity).goto (.pause [Cmd.density])
  else s.goto .idle

/-- `detach`: the cache is discarded and the port closed (46_device_adapter.md R282). -/
def State.startDetach (s : State) : Answer :=
  s.onDevice ((s.setAd { s.ad with attached := false, cache := [] }).startClosePort)

/-! ### Sector service (46_device_adapter.md R287, R288, R289) -/

/-- `setSector`: the selection is latched; the second `head` of the source's signature is the physical
side's again and is not kept (46_device_adapter.md R287). Operands of any size are kept whole: no rule
gives them a width (DESIGN CHOICE; notes/assumptions/37). -/
def State.startSetSector (s : State) (side cylinder sector sizeCode : Nat) : Answer :=
  s.onDevice (.next ((s.setAd { s.ad with
    sel := { head := side, cyl := cylinder, sector := sector, size := sizeCode } }).goto .idle))

/-- `FillByte(offset)` (46_device_adapter.md R289, 30_encoding.md R109). Of a latched value above 255 the
low 8 bits are the fill byte, while the lookup of `Selection.entry` uses the full number (DESIGN CHOICE;
notes/assumptions/37). -/
def Selection.fillByte (sel : Selection) (offset : Nat) : Byte :=
  if offset = 0 then BitVec.ofNat 8 sel.cyl
  else if offset = 1 then BitVec.ofNat 8 sel.head
  else if offset = 2 then BitVec.ofNat 8 sel.sector
  else if offset = 3 then BitVec.ofNat 8 sel.size
  else 0xAA

/-- The entry the selection names, unless it is absent: no key, a filler, or sector number 0
(46_device_adapter.md R288). -/
def Selection.entry (sel : Selection) (trk : Track) : Option Sector :=
  if sel.sector = 0 then none
  else match trk.get (sel.sector - 1) with
    | none => none
    | some e => if e.errorCount = Config.errSentinel then none else some e

/-- The byte served at an offset (46_device_adapter.md R288). -/
def Selection.serve (sel : Selection) (limit : Half) (trk : Track) (offset : Nat) : Byte :=
  match sel.entry trk with
  | none => sel.fillByte offset
  | some e =>
    if limit < e.errorCount then sel.fillByte offset
    else match e.bytes[offset]? with
      | none => sel.fillByte offset
      | some b => b

/-- `readByte(head, offset)` with the cached track of its head. -/
def State.serveByte (s : State) (offset : Nat) (trk : Track) : State :=
  (s.setOut (.byte ((s.ad.sel).serve s.par.serveErrLimit trk offset))).goto .idle

/-! ### CaptureAndDecode (46_device_adapter.md R284, R285) -/

/-- `FillerTrack(exp)`. -/
def fillerTrack (exp : Nat) : Track := Track.fill exp 0 []

/-- The entry is stored, and the operation that asked for it goes on: `seek` with the next head,
`readByte` with the byte. -/
def State.captureDone (s : State) (track head : Nat) (trk : Track) : State :=
  let s1 := s.setAd { s.ad with cache := cacheSet s.ad.cache { track := track, head := head, trk := trk } }
  match s1.frames with
  | .seekHead t h :: rest => (s1.pop rest).goto (.seek t (h + 1))
  | .serve _ offset :: rest => (s1.pop rest).serveByte offset trk
  | _ => s1.goto .idle

/-- The start of an attempt; every attempt but the first begins with the calibration seek. -/
def State.startAttempt (s : State) (track head attempt : Nat) : Answer :=
  if 1 < attempt then
    (s.push (.capture .calOut track head attempt)).startSelectTrack (calTrack track)
  else (s.push (.capture .select track head attempt)).startSelectTrack track

/-- A failed attempt: the next one, or the filler track after the third. -/
def State.attemptFailed (s : State) (track head attempt : Nat) : Answer :=
  if attempt < Config.trackReadTries then s.startAttempt track head (attempt + 1)
  else .next (s.captureDone track head (fillerTrack (sectorsPerTrack s.isHDMode)))

/-- The step of `CaptureAndDecode` that follows the code of the one it waited for. -/
def State.afterCapture (s : State) (k : CapStep) (track head attempt : Nat) (c : Code) : Answer :=
  match k with
  | .calOut => (s.push (.capture .calBack track head attempt)).startSelectTrack track
  | .calBack => (s.push (.capture .select track head attempt)).startSelectTrack track
  | .select =>
    if c = .ok then (s.push (.capture .surface track head attempt)).startSelectSurface head
    else s.attemptFailed track head attempt
  | .surface =>
    if c = .ok then (s.push (.capture .read track head attempt)).startReadTrack
    else s.attemptFailed track head attempt
  | .read =>
    if c = .ok then
      (s.push (.captureDecode track head)).startDecode s.isHDMode track head
        (sectorsPerTrack s.isHDMode)
    else s.attemptFailed track head attempt

/-- The end of a scan: its outputs, then the operation that asked for it (45_mfm_decoder.md R257 to
R259, 46_device_adapter.md R284). -/
def State.endScan (s : State) : State :=
  let s1 := s.setDec s.dec.finish
  match s1.frames with
  | .captureDecode track head :: rest => (s1.pop rest).captureDone track head s1.dec.trk
  | _ => s1.goto .idle

/-! ### Seek (46_device_adapter.md R283) -/

/-- The cache and the current track once the head is on `track`: a seek to another track invalidates. -/
def Adapter.moveTo (ad : Adapter) (track : Nat) : Adapter :=
  if track = ad.curTrack then ad else { ad with cache := [], curTrack := track }

/-- `seek(track)`: the invalidation happens before every later read of the cache. -/
def State.startSeek (s : State) (track : Nat) : Answer :=
  s.onDevice (.next ((s.setAd (s.ad.moveTo track)).goto (.seek track 0)))

/-- One head of a seek: captured unless its entry is there; after the last head the seek returns. -/
def State.seekStep (s : State) (track head : Nat) : Answer :=
  if Config.heads ≤ head then .next (s.goto .idle)
  else match cacheGet s.ad.cache track head with
    | some _ => .next (s.goto (.seek track (head + 1)))
    | none => (s.push (.seekHead track head)).startAttempt track head 1

/-- `readByte(head, offset)`: served from the cache; without an entry the track is captured first
(46_device_adapter.md R288). The entry is that of the call's own head, as R288's pseudocode has it;
where the selection's head differs, R287 would name the other one (DESIGN CHOICE; notes/assumptions/36). -/
def State.startReadByte (s : State) (head offset : Nat) : Answer :=
  s.onDevice
    (match cacheGet s.ad.cache s.ad.curTrack head with
     | some trk => .next (s.serveByte offset trk)
     | none => (s.push (.serve head offset)).startAttempt s.ad.curTrack head 1)

/-! ### The read-only upward interface (46_device_adapter.md R290, R291) -/

/-- `writeByte` and `writeback`: no-ops. -/
def State.startNoOp (s : State) : Answer := s.onDevice (.next (s.goto .idle))

/-- `formatSupported() -> false`. -/
def State.startFormatSupported (s : State) : Answer :=
  s.onDevice (.next ((s.setOut (.bool false)).goto .idle))

/-- `writeprot`, forced true whatever the engine's `writeProtected` says. -/
def State.startWriteprot (s : State) : Answer :=
  s.onDevice (.next ((s.setOut (.bool true)).goto .idle))

/-- `diskFlags()` and `sideFlags()`: double-sided and MFM always, the data-rate class by `isHDMode`. -/
def State.startFlags (s : State) : Answer :=
  s.onDevice (.next ((s.setOut (.flags true true s.isHDMode)).goto .idle))

end Sys2Proof.Machine
end

