-- ==== Sys2Proof/Machine/Control.lean ====
section
/-! DEFINITION. The two ends of an operation: its start, and what an operation that called another does
with the code that comes back (60_exceptions.md R310, R312). -/

namespace Sys2Proof.Machine

/-- What the waiting operation does with the code of the one it called (60_exceptions.md R312): the
return from the exception `State.ret` takes. -/
def resume (f : Frame) (c : Code) (s : State) : Answer :=
  match f with
  | .rewind => .next (s.ret (rewindCode c))
  | .enableOn => .next (s.afterEnable c)
  | .enableOff => .next (s.afterDisable c)
  | .enableWrite => .next (s.afterEnableWrite c)
  | .density => .next (s.afterDensity c)
  | .features => .next (s.afterFeatures c)
  | .streamStart => .next (s.afterStreamStart c)
  | .abortPoll => .next (s.goto .idle)
  | .stalled => .next s.afterRecheck
  | .payload precomp => .next (s.afterWriteCommand precomp c)
  | .closing => .next (s.goto .closing)
  | .attachOpen => .next (s.afterAttachOpen c)
  | .attachDensity => .next (s.goto .idle)
  | .capture k track head attempt => s.afterCapture k track head attempt c
  | .captureDecode _ _ => .next (s.goto .idle)
  | .seekHead _ _ => .next (s.goto .idle)
  | .serve _ _ => .next (s.goto .idle)

/-- An operation has returned a code: the operation that called it goes on, or, with none waiting, the
worker has its result (60_exceptions.md R305, R310). -/
def State.handBack (s : State) (c : Code) : Answer :=
  match s.frames with
  | [] => .next (s.goto .idle)
  | f :: rest => resume f c (s.pop rest)

/-- The start of the worker's operation (30_encoding.md R110, 46_device_adapter.md). -/
def startOp (o : Op) (s : State) : Answer :=
  match o with
  | .openPort path ctsFlow triggerReset => s.startOpenPort path ctsFlow triggerReset
  | .closePort => s.startClosePort
  | .runCommand c p => s.startRunCommand c p
  | .rewind => s.startCommand s.st.commands [Cmd.rewind]
  | .selectTrack n => s.startSelectTrack n
  | .selectSurface h => s.startSelectSurface h
  | .enableReading on => s.startEnableReading on
  | .enableWriting => s.startEnableWriting
  | .checkDisk force => s.startCheckDisk force
  | .checkWriteProtect => s.startCommand s.st.commands [Cmd.checkWp]
  | .checkDensity => s.startCommand s.st.commands [Cmd.density]
  | .diagnostics => s.startCommand s.st.commands [Cmd.diagnostics]
  | .readTrack => s.startReadTrack
  | .writeTrack precomp mfm nbits => s.startWriteTrack precomp mfm nbits
  | .loadCapture raw bitLength => s.startLoadCapture raw bitLength
  | .decode isHD cylinder head expected => s.startDecode isHD cylinder head expected
  | .readBit bs c => s.startReadBit bs c
  | .writeBit bs c x => s.startWriteBit bs c x
  | .extract at' n => s.startExtract at' n
  | .crc16 bs => s.startCrc16 bs
  | .attach path ctsFlow triggerReset => s.startAttach path ctsFlow triggerReset
  | .detach => s.startDetach
  | .seek track => s.startSeek track
  | .setSector side cylinder _ sector sizeCode => s.startSetSector side cylinder sector sizeCode
  | .readByte head offset => s.startReadByte head offset
  | .writeByte => s.startNoOp
  | .writeback => s.startNoOp
  | .formatSupported => s.startFormatSupported
  | .writeprot => s.startWriteprot
  | .diskFlags => s.startFlags
  | .sideFlags => s.startFlags

/-- With no operation in flight the worker issues its next one; with none left, time passes
(20_memory.md R75). -/
def State.nextOp (s : State) : Answer :=
  match s.ops with
  | [] => .next s
  | o :: rest => startOp o { s with ops := rest }

end Sys2Proof.Machine
end

