-- ==== Sys2Proof/Machine/Fetch.lean ====
section
/-! DEFINITION. What a step finds to do: an instruction that the decoder reads in the context the machine
is in, or a step of an operation that runs none (00_scope.md R18); and how one instruction is placed
where the next step finds it. -/

namespace Sys2Proof.Machine

/-- What a step finds to do. -/
inductive Fetch where
  /-- This instruction, in this state. -/
  | run (i : Instr) (s : State)
  /-- No instruction: the step's answer. -/
  | moved (a : Answer)

/-- The context of an awaited response (30_encoding.md R95). -/
def Await.ctx : Await → Ctx
  | .rsp1 => .rsp1
  | .rspT => .rspT
  | .diskPresence => .presence
  | .diskProtect _ => .protect
  | .wpByte => .protect
  | .density => .density
  | .rspW => .rspW

/-- The instruction a decoding gives, in a state; else the step's answer. -/
def orElse (d : Decoded) (s : State) (a : Answer) : Fetch :=
  match d with
  | .instr i => .run i s
  | .reject _ => .moved a

/-- What `RxRead(1)` returned is judged: silence ends the exchange, a byte is decoded in its context
(42_commands.md R170). -/
def State.fetchResponse (s : State) (a : Await) (bs : List Byte) : Fetch :=
  match bs with
  | [] => .moved (.next s.noResponse)
  | b :: _ => orElse (decode s.par.sync a.ctx [b]) s (.refused .noContext)

/-- A step of the handshake; the window of the sync loop holds a version reply or does not
(41_handshake.md R153). -/
def State.fetchHs (s : State) (k : HsStep) : Fetch :=
  match k with
  | .look => orElse (decode s.par.sync .version s.hs.vwin.bytes) s (s.hsStep .look)
  | k => .moved (s.hsStep k)

/-- A step of the streamed read; a byte of the chunk is data before the abort byte was sent, and then the
echo window is looked at (43_streaming_read.md R202, R206). -/
def State.fetchStream (s : State) (k : StreamStep) : Fetch :=
  match k with
  | .byte b =>
    if s.str.abortSent then .moved (s.streamStep (.byte b))
    else orElse (decode s.par.sync .stream [b]) s (.refused .noContext)
  | .echo => orElse (decode s.par.sync .echo s.str.awin.bytes) s (s.streamStep .echo)
  | k => .moved (s.streamStep k)

/-- One shift of the scan; from the 64th on the register is compared (45_mfm_decoder.md R240). -/
def State.fetchWindow (s : State) : Fetch :=
  if scanOver s.dec s.cap then .moved (.next s.endScan)
  else
    let s1 := s.setDec (s.dec.shift s.cap)
    if s1.dec.full then
      orElse (decodeWindow s1.par.sync s1.dec.sr) s1 (.next (s1.setDec s1.dec.next))
    else .moved (.next (s1.setDec s1.dec.next))

/-- What a step finds to do, after the environment's move. -/
def State.fetch (s : State) : Fetch :=
  match s.phase with
  | .idle => .moved s.nextOp
  | .pause w => .moved (.next (s.commandPause (.mark w)))
  | .mark w => .moved (.next (s.commandMark (w.headD 0) (.issue w)))
  | .issue w => orElse (decode s.par.sync .command w) s (.refused .illegalCommand)
  | .pauseRaw c p => .moved (.next (s.commandPause (.markRaw c p)))
  | .markRaw c p => .moved (.next (s.commandMark c (.raw c p)))
  | .raw c p => .moved (s.writeRaw c p)
  | .param p => .moved (s.writeParam p)
  | .await a => .moved (s.onChannel (s.readTo 1 (.judge a)))
  | .judge a bs => s.fetchResponse a bs
  | .protect prot c => .moved (.next (s.setProtect prot c))
  | .length n c => .moved (.next (s.setLength n c))
  | .exit c => .moved (.next (s.ret c))
  | .ret c => .moved (s.handBack c)
  | .hs k => s.fetchHs k
  | .closing => .moved s.finishClose
  | .shut => .moved (.next s.shut)
  | .stream k => s.fetchStream k
  | .block => .moved s.blockPoll
  | .framing bs => .moved (.next (s.blockFraming bs))
  | .framed => .moved (.next s.blockFramed)
  | .payload precomp => .moved (s.writePayload precomp)
  | .scan => s.fetchWindow
  | .seek track head => .moved (s.seekStep track head)

/-- What a step adds after an instruction: during a scan the cursor advances by exactly 1
(10_state.md R36). -/
def State.settle (s : State) (a : Answer) : Answer :=
  if s.phase = .scan then a.onNext (fun t => t.setDec t.dec.next) else a

/-! ### Placing one instruction -/

/-- The engine states in which an instruction has its effect (42_commands.md R172, 41_handshake.md R158,
43_streaming_read.md R200, 44_track_write.md R220). -/
def engineStateOf : Instr → EngineState
  | .version | .features | .versionReply _ _ _ => .syncing
  | .abort | .abortEcho | .streamData _ => .streaming
  | .readTrack | .readStream => .readEnabled
  | .writeTrack | .writePrecomp => .writeEnabled
  | _ => .ready

/-- The response byte awaited in a context. -/
def awaitOf (c : Ctx) : Await :=
  match c with
  | .rspT => .rspT
  | .presence => .diskPresence
  | .protect => .diskProtect .present
  | .density => .density
  | .rspW => .rspW
  | _ => .rsp1

/-- A session is open in the engine state an instruction needs, and the environment's next move is a
quiet one. -/
def State.inSession (s : State) (st : EngineState) : State :=
  { s with st := st, tp := { s.tp with isOpen := true }, env := Move.quiet :: s.env }

/-- The machine about to fetch this instruction: its bytes stand where the context reads them
(notes/assumptions/9). -/
def State.fetching (s : State) (i : Instr) : State :=
  let bs := encode s.par.sync i
  let s1 := s.inSession (engineStateOf i)
  match i.ctx with
  | .command => s1.goto (.issue bs)
  | .version =>
    { s1 with
      hs := { s1.hs with vwin := { b0 := bs.getD 0 0, b1 := bs.getD 1 0, b2 := bs.getD 2 0
                                   b3 := bs.getD 3 0, b4 := bs.getD 4 0 } }
      phase := .hs .look }
  | .echo =>
    { s1 with
      str := { s1.str with
               awin := { b0 := bs.getD 0 0, b1 := bs.getD 1 0, b2 := bs.getD 2 0, b3 := bs.getD 3 0
                         b4 := bs.getD 4 0 }
               abortSent := true }
      phase := .stream .echo }
  | .stream =>
    { s1 with str := { s1.str with abortSent := false }, phase := .stream (.byte (bs.getD 0 0)) }
  | .scan =>
    { s with
      cap := { buf := Memory.ofBytes 0 bs, size := Config.srWidth / 8, bitLength := Config.srWidth }
      dec := { s.dec with t := Config.srWidth - 1, sr := BitVec.ofNat Config.srWidth (joinBytes bs / 2) }
      phase := .scan }
  | c => s1.goto (.judge (awaitOf c) [bs.getD 0 0])

end Sys2Proof.Machine
end

