-- ==== Sys2Proof/Machine/Dispatch.lean ====
section
/-! DEFINITION. One arm per row of the opcode table: the meaning of each instruction. -/

namespace Sys2Proof.Machine

/-- What an instruction does, in a state after the environment's move. -/
def exec (i : Instr) (s : State) : Host.Outcome State Fault Refusal :=
  match i with
  | .version => Sys2Proof.Machine.execVersion s
  | .rewind => Sys2Proof.Machine.execRewind s
  | .gotoTrack n => Sys2Proof.Machine.execGotoTrack n s
  | .head0 => Sys2Proof.Machine.execHead0 s
  | .head1 => Sys2Proof.Machine.execHead1 s
  | .readTrack => Sys2Proof.Machine.execReadTrack s
  | .readStream => Sys2Proof.Machine.execReadStream s
  | .enable => Sys2Proof.Machine.execEnable s
  | .disable => Sys2Proof.Machine.execDisable s
  | .writeTrack => Sys2Proof.Machine.execWriteTrack s
  | .writePrecomp => Sys2Proof.Machine.execWritePrecomp s
  | .diagnostics => Sys2Proof.Machine.execDiagnostics s
  | .density => Sys2Proof.Machine.execDensity s
  | .checkDisk => Sys2Proof.Machine.execCheckDisk s
  | .checkWp => Sys2Proof.Machine.execCheckWp s
  | .features => Sys2Proof.Machine.execFeatures s
  | .abort => Sys2Proof.Machine.execAbort s
  | .rsp1Ok => Sys2Proof.Machine.execRsp1Ok s
  | .rsp1Error => Sys2Proof.Machine.execRsp1Error s
  | .rsp1Other b => Sys2Proof.Machine.execRsp1Other b s
  | .rsptMoved => Sys2Proof.Machine.execRsptMoved s
  | .rsptAlready => Sys2Proof.Machine.execRsptAlready s
  | .rsptFail => Sys2Proof.Machine.execRsptFail s
  | .rsptOther b => Sys2Proof.Machine.execRsptOther b s
  | .rsp2NoDisk => Sys2Proof.Machine.execRsp2NoDisk s
  | .rsp2Present => Sys2Proof.Machine.execRsp2Present s
  | .rsp2B0Other b => Sys2Proof.Machine.execRsp2B0Other b s
  | .rsp2Prot1 => Sys2Proof.Machine.execRsp2Prot1 s
  | .rsp2ProtHash => Sys2Proof.Machine.execRsp2ProtHash s
  | .rsp2B1Other b => Sys2Proof.Machine.execRsp2B1Other b s
  | .densHd => Sys2Proof.Machine.execDensHd s
  | .densDd => Sys2Proof.Machine.execDensDd s
  | .densOther b => Sys2Proof.Machine.execDensOther b s
  | .rspwClean => Sys2Proof.Machine.execRspwClean s
  | .rspwTimeout => Sys2Proof.Machine.execRspwTimeout s
  | .rspwFraming => Sys2Proof.Machine.execRspwFraming s
  | .rspwOverrun => Sys2Proof.Machine.execRspwOverrun s
  | .rspwOther b => Sys2Proof.Machine.execRspwOther b s
  | .abortEcho => Sys2Proof.Machine.execAbortEcho s
  | .versionReply major dot minor => Sys2Proof.Machine.execVersionReply major dot minor s
  | .streamData b => Sys2Proof.Machine.execStreamData b s
  | .syncIam => Sys2Proof.Machine.execSyncIam s
  | .syncIdam => Sys2Proof.Machine.execSyncIdam s
  | .syncDam => Sys2Proof.Machine.execSyncDam s

end Sys2Proof.Machine
end

