-- ==== Sys2Proof/Machine/Step.lean ====
section
/-! DEFINITION. One step: the environment's move, then the instruction the machine finds, or the step of
an operation that runs none (00_scope.md R18). -/

namespace Sys2Proof.Machine

/-- What the step does with what it found. -/
def runFetched : Fetch → Host.Outcome State Fault Refusal
  | .run i s => s.settle (exec i s)
  | .moved a => a

/-- One step of the machine. -/
def step (s : State) : Host.Outcome State Fault Refusal := runFetched s.tick.fetch

/-- The machine with the instruction whose bits, numbered as spec/opcode_table.json numbers them, are `w`
placed where the next step fetches it; bits that are no instruction stand as a command about to be
written, which the fetch refuses (notes/assumptions/9, 10). -/
def State.withFetchWord (s : State) (nbits w : Nat) : State :=
  match decodeTableWord nbits w with
  | some i => s.fetching i
  | none => s.goto (.issue (splitBytes (nbits / 8) w))

end Sys2Proof.Machine
end

