-- ==== Sys2Proof/Safety.lean ====
section
/-! DEFINITION. The terms in which statements about the machine are made: what a run without a stop is,
and the invariants of the state that every step keeps. -/

namespace Sys2Proof.Machine

/-! ### Answers -/

/-- The step went on. -/
def Answer.isNext (a : Answer) : Bool :=
  match a with
  | .next _ => true
  | .fault _ => false
  | .refused _ => false

/-- `n` steps of the machine, stopping at the first fault or refusal. -/
def steps : Nat → State → Answer
  | 0, s => .next s
  | n + 1, s =>
    match step s with
    | .next t => steps n t
    | .fault r => .fault r
    | .refused r => .refused r

/-! ### Canonical form (20_memory.md R68, 10_state.md R40) -/

/-- A cache entry stands before another: by track, then by head. -/
def CacheEntry.before (a b : CacheEntry) : Bool :=
  decide (a.track < b.track) || (a.track == b.track && decide (a.head < b.head))

/-- The adapter's cache has one list per map, and so has every track in it. -/
def cacheWf : List CacheEntry → Bool
  | [] => true
  | [e] => e.trk.wf
  | e :: f :: rest => e.before f && e.trk.wf && cacheWf (f :: rest)

/-- The capture's bytes, the Decoded Track and the adapter's cache are in their canonical forms, so
that equal contents are equal data. -/
def State.Canonical (s : State) : Prop :=
  s.cap.buf.wf = true ∧ s.dec.trk.wf = true ∧ cacheWf s.ad.cache = true

/-! ### The session (10_state.md R29, 41_handshake.md R150) -/

/-- The engine state of each step of the handshake: `Closed` until the timeouts are set, then `Syncing`
(41_handshake.md R151). -/
def HsStep.engineState : HsStep → EngineState
  | .open | .configure | .drop | .syncRd | .syncWr | .enter => .closed
  | .greet | .hello | .zeroWindow | .zeroSeen | .zeroEmpty | .clock | .top | .poll | .byte _ | .shift _
  | .look | .kicked | .minor _ _ | .control _ | .purge1 | .settle | .purge2 | .query | .featBytes
  | .features _ | .flags2 _ _ | .build _ | .check | .normalRd | .normalWr | .ready | .dtrLow | .rtsLow
  | .settleLow | .dtrHigh | .rtsHigh | .settleHigh | .close _ | .closed _ => .syncing

/-- The engine state of each step of the streamed read: `ReadEnabled` until `Streaming` is entered
(43_streaming_read.md R200). -/
def StreamStep.engineState : StreamStep → EngineState
  | .enter => .readEnabled
  | .initWindow | .initStall | .initSent | .initUser | .initCursor | .top | .poll | .chunk _ | .got
  | .bytes | .byte _ | .echo | .symbols _ | .advance _ | .aborted | .user | .leaveFlag | .leaveState
  | .stalled | .stalledState => .streaming

/-- Inside the streamed read. -/
def Phase.isStream : Phase → Bool
  | .stream _ => true
  | _ => false

/-- An exchange of the command/response primitive is under way or has just returned. -/
def Phase.inExchange (p : Phase) : Prop :=
  p = .await .rsp1 ∨ (∃ bs, p = .judge .rsp1 bs) ∨ ∃ c, p = .exit c ∨ p = .ret c

/-- The Transport has been released and `st` is about to follow (41_handshake.md R160, R162). -/
def Phase.justClosed : Phase → Bool
  | .shut | .hs (.closed _) => true
  | _ => false

/-- The session and the engine's place agree: outside `Closed`, and about to leave it, there
is a Transport Session, but for the moment after its release; the steps of the handshake and of the
streamed read have their engine states; and an operation that waits for a stream start or for the
feature query is the innermost one, in its exchange and in its engine state. -/
def State.SessionInv (s : State) : Prop :=
  (s.st ≠ .closed ∨ s.phase = .hs .enter → s.phase.justClosed = false → s.tp.isOpen = true)
    ∧ (∀ k, s.phase = .hs k → s.st = k.engineState)
    ∧ (∀ k, s.phase = .stream k → s.st = k.engineState)
    ∧ (∀ f ∈ s.frames.tail, f ≠ .streamStart ∧ f ≠ .features)
    ∧ (s.frames.head? = some .streamStart → s.st = .readEnabled ∧ s.phase.inExchange)
    ∧ (s.frames.head? = some .features → s.st = .syncing ∧ s.phase.inExchange)

/-- The moves of the engine state in the transition table (41_handshake.md R150), and staying. -/
def EngineState.mayMove (a b : EngineState) : Bool :=
  match a, b with
  | .closed, .closed | .closed, .syncing => true
  | .syncing, .syncing | .syncing, .ready | .syncing, .closed => true
  | .ready, .ready | .ready, .readEnabled | .ready, .writeEnabled | .ready, .closed => true
  | .readEnabled, .readEnabled | .readEnabled, .ready | .readEnabled, .streaming
  | .readEnabled, .closed => true
  | .writeEnabled, .writeEnabled | .writeEnabled, .ready | .writeEnabled, .closed => true
  | .streaming, .streaming | .streaming, .readEnabled | .streaming, .closed => true
  | _, _ => false

/-! ### The streamed read (43_streaming_read.md R200 to R208) -/

/-- The steps before the write cursor has its initial value. -/
def StreamStep.entering : StreamStep → Bool
  | .enter | .initWindow | .initStall | .initSent | .initUser | .initCursor => true
  | _ => false

/-- The steps between the stall counter's initial value and the end of the read. -/
def StreamStep.counting : StreamStep → Bool
  | .enter | .initWindow | .initStall | .leaveFlag | .leaveState | .stalled | .stalledState => false
  | _ => true

/-- The steps of the loop that write no capture bit. -/
def StreamStep.waiting : StreamStep → Bool
  | .top | .poll | .chunk _ | .got | .bytes | .byte _ | .echo | .aborted | .user => true
  | _ => false

/-- The forced check after a stall is under way, or has just returned (43_streaming_read.md R208). -/
def Phase.inRecheck (p : Phase) : Prop :=
  p = .pause [Cmd.checkDisk] ∨ p = .mark [Cmd.checkDisk] ∨ p = .issue [Cmd.checkDisk]
    ∨ p = .await .diskPresence ∨ (∃ bs, p = .judge .diskPresence bs)
    ∨ (∃ f, p = .await (.diskProtect f)) ∨ (∃ f bs, p = .judge (.diskProtect f) bs)
    ∨ (∃ prot c, p = .protect prot c) ∨ ∃ c, p = .exit c ∨ p = .ret c

/-- The write cursor lies in the capture. -/
def State.CursorInside (s : State) : Prop :=
  s.str.wcur.bit < 8 ∧ s.str.wcur.linear ≤ 8 * s.cap.size

/-- The valid bits of the capture lie in its buffer, those about to be set among them; in `Streaming` the
engine is in the streamed read or about to record and write the abort byte; from its initial value on
the write cursor lies in the capture, with room where a bit has just been written, and the empty polls
in a row are fewer than the limit; the chunk, and what a poll returned, is at most one poll long; and an
operation that waits for the check after a stall is the innermost one, in that check, with the cursor
in the capture. -/
def State.StreamInv (s : State) : Prop :=
  s.cap.bitLength ≤ 8 * s.cap.size
    ∧ (∀ n c, s.phase = .length n c → n ≤ 8 * s.cap.size)
    ∧ (s.st = .streaming → s.phase.isStream = true ∨ s.phase = .mark [Cmd.abort]
        ∨ s.phase = .issue [Cmd.abort])
    ∧ (s.st = .streaming ∨ s.phase.isStream = true →
        ((∀ k, s.phase = .stream k → k.entering = false) → s.CursorInside)
          ∧ ((∀ k, s.phase = .stream k → k.counting = true) → s.str.nStall < Config.stallPolls))
    ∧ (∀ xs, s.phase = .stream (.advance xs) → s.str.wcur.linear < 8 * s.cap.size)
    ∧ s.str.chunk.length ≤ Config.streamChunk
    ∧ (∀ bs, s.phase = .stream (.chunk bs) → bs.length ≤ Config.streamChunk)
    ∧ (∀ f ∈ s.frames.tail, f ≠ .stalled)
    ∧ (s.frames.head? = some .stalled → s.phase.inRecheck ∧ s.CursorInside)

/-! ### The decoder during a scan (10_state.md R35, 45_mfm_decoder.md section 6) -/

/-- The track's keys are strictly rising and at most `MAX_SECTOR - 1`; each payload has the length of a
size code; each error count is at most `SYNTH_ERR + 1` and never the sentinel; a latched header has a
sector number and at most `SYNTH_ERR` errors. -/
def Decoder.Bounded (p : Params) (d : Decoder) : Prop :=
  d.trk.wf = true
    ∧ (∀ e ∈ d.trk, e.1 ≤ 21 ∧ (∃ code ≤ 7, e.2.bytes.length = 2 ^ (7 + code))
      ∧ e.2.errorCount.toNat ≤ p.synthErr.toNat + 1 ∧ e.2.errorCount ≠ 0xFFFF)
    ∧ (d.headerFound = true → 1 ≤ d.hdr.r ∧ d.hdrErr.toNat ≤ p.synthErr.toNat)

/-! ### One operation and its environment -/

/-- The environment does nothing, now and ever after. -/
def State.Quiet (s : State) : Prop := s.env = [] ∧ s.beyond = .again []

/-- A move in which the next write is accepted whole, or not at all. -/
def Move.accepting (whole : Bool) : Move :=
  { Move.quiet with accept := if whole then none else some 0 }

/-- A move in which the device sends these bytes. -/
def Move.sending (bs : List Byte) : Move := { Move.quiet with arrive := bs }

/-- The moves of an exchange: nothing at the operation's start, in the pause and at the mark, the write
accepted whole or not at all, these bytes sent in answer. -/
def Move.exchange (whole : Bool) (rsp : List Byte) : List Move :=
  [Move.quiet, Move.quiet, Move.quiet, Move.accepting whole, Move.sending rsp]

/-- The worker asks for one operation of an open session with an empty receive FIFO; the environment
makes these moves and is quiet after them. -/
def State.asked (s : State) (o : Op) (moves : List Move) : State :=
  { s with
    tp := { s.tp with isOpen := true, rx := [] }
    phase := .idle, frames := [], ops := [o], env := moves, beyond := .again [] }

/-- The state after an operation that wrote these bytes, left these in the receive FIFO and returned
this code at this time: everything else is as before. -/
def State.finished (s : State) (lastCommand : Byte) (wrote rest : List Byte) (code : Code) (now : Nat) :
    State :=
  { s with
    lastError := code, lastCommand := lastCommand
    tp := { s.tp with tx := s.tp.tx ++ wrote, rx := rest }
    now := now, ops := [], env := [], cur := Move.quiet }

/-- The state after a command was written whole, with the engine about to go on at `p`: the write takes
time, nothing else changes. -/
def State.sent (s : State) (bs : List Byte) (p : Phase) : State :=
  { s with
    tp := { s.tp with tx := s.tp.tx ++ bs }
    now := s.now + min s.cur.busy (deadline s.tp.wrTimeout bs.length)
    phase := p }

/-- Whether the engine state allows a wire command (42_commands.md R172, R180; 41_handshake.md R154, R158;
43_streaming_read.md R200, R205; 44_track_write.md R220); rows that are no command are not allowed. -/
def State.allows (s : State) (i : Instr) : Bool :=
  match i with
  | .version | .features => s.st == .syncing
  | .rewind | .gotoTrack _ | .head0 | .head1 | .disable | .diagnostics | .density | .checkDisk
  | .checkWp => s.st.commands
  | .enable => s.st == .ready || s.st == .readEnabled
  | .readTrack | .readStream => s.st == .readEnabled
  | .writeTrack | .writePrecomp => s.st == .writeEnabled
  | .abort => s.st == .streaming
  | _ => false

/-- The operation that waits for the code of a command's exchange, if one does (60_exceptions.md R312). -/
def waitingFor (i : Instr) : List Frame :=
  match i with
  | .rewind => [.rewind]
  | .enable => [.enableOn]
  | .disable => [.enableOff]
  | .density => [.density]
  | .features => [.features]
  | .readStream => [.streamStart]
  | .writeTrack => [.payload false]
  | .writePrecomp => [.payload true]
  | _ => []

/-- Whether a command whose write count is examined goes as far as its write: its state allows it and no
test before the write ends it (60_exceptions.md R309). -/
def State.writes (s : State) (i : Instr) : Bool :=
  s.allows i &&
    match i with
    | .version | .abort => false
    | .gotoTrack n => decide (n ≤ Config.trackMax)
    | .writeTrack => !s.writeProtected
    | .writePrecomp => !s.writeProtected && s.wr.transitions.all legalRun
    | _ => true

/-- The code of a response of the command/response primitive: the bytes received, the first of which is
the response (42_commands.md R170). -/
def responseCode (rsp : List Byte) : Code :=
  match rsp with
  | [] => .readResponseFailed
  | b :: _ => if b = 0x31 then .ok else if b = 0x30 then .error else .statusError

/-- The code of the primitive without a parameter (42_commands.md R170, R171). -/
def commandCode (accepted : Bool) (rsp : List Byte) : Code :=
  if accepted then responseCode rsp else .sendFailed

/-- What stays in the receive FIFO when `n` bytes are read of a response, or none is asked for. -/
def leftOver (asked : Bool) (n : Nat) (rsp : List Byte) : List Byte := if asked then rsp.drop n else rsp

end Sys2Proof.Machine
end

