-- ==== Sys2Proof/Certificates/Slice0/Obligations.lean ====
section
/-! DEFINITION. The statements about the machine, one definition each. A next state is written as an
update of the state before, so that each says what changes and, by every field it does not name, what
does not. -/

open Sys2Proof Sys2Proof.Machine

/-- For every triple of pairwise different sync constants and every well-formed instruction of any row,
with every operand its encoding admits, the decoder of the instruction's context reads the
instruction back from its encoding. (30_encoding.md, sections 2 to 5 and 8) -/
def Obligations.DecodeOfEncodeIsTheInstruction : Prop :=
  ∀ (k : SyncWords) (i : Instr), k.iam ≠ k.idam → k.iam ≠ k.dam → k.idam ≠ k.dam → i.wf = true →
    decode k i.ctx (encode k i) = .instr i

/-- In every context, for every sync constants and every bytes: if the decoder reads an instruction,
that instruction is well formed, belongs to the context, and its encoding is exactly those bytes; so
no bit of an encoding is dropped and no two byte strings of a context are one instruction.
(30_encoding.md, sections 2 to 5 and 8) -/
def Obligations.EncodeOfDecodeIsTheBytes : Prop :=
  ∀ (k : SyncWords) (c : Ctx) (bs : List Byte) (i : Instr), decode k c bs = .instr i →
    i.wf = true ∧ i.ctx = c ∧ encode k i = bs

/-- The alphabet's bytes for enable and check disk, the track commands 23 30 37 and 23 38 33, the
version reply 1V9,5, the abort echo, the status byte Y of a track write, and the data address mark
with the IBM constants decode to their rows; 23 38 34 (track 84) and a version reply with major
digit 0 do not decode. (30_encoding.md, sections 2 to 5 and 8) -/
def Obligations.SpelledWordsDecode : Prop :=
  ∀ k : SyncWords,
    decode k .command [0x2B] = .instr .enable
      ∧ decode k .command [0x5E] = .instr .checkDisk
      ∧ decode k .command [0x23, 0x30, 0x37] = .instr (.gotoTrack 7)
      ∧ decode k .command [0x23, 0x38, 0x33] = .instr (.gotoTrack 83)
      ∧ decode k .command [0x23, 0x38, 0x34] = .reject .trackRange
      ∧ decode k .version [0x31, 0x56, 0x39, 0x2C, 0x35] = .instr (.versionReply 9 false 5)
      ∧ decode k .version [0x31, 0x56, 0x30, 0x2C, 0x35] = .reject .notVersion
      ∧ decode k .echo [0x58, 0x59, 0x5A, 0x78, 0x31] = .instr .abortEcho
      ∧ decode k .rspW [0x59] = .instr .rspwFraming
      ∧ decode Config.ibmSync .scan [0x44, 0x89, 0x44, 0x89, 0x44, 0x89, 0x55, 0x45] = .instr .syncDam

/-- When the bytes of a command about to be written, the response byte the engine judges, the handshake
window after the byte a poll returned has been shifted in, the byte of a chunk before the abort byte
was sent, the echo window after a byte of a chunk has been shifted in, or the shift register after
one more capture bit decode to an instruction, the step is the environment's part and exec of the
instruction, in the scan after the shift, with the cursor advanced by one. The bytes are read and
shifted in by the steps before, one call or one register update each. (00_scope.md, rules on steps,
30_encoding.md, section 1) -/
def Obligations.StepRunsTheDecodedInstruction : Prop :=
  ∀ (s : State) (i : Instr),
    (∀ w, s.phase = .issue w → decode s.par.sync .command w = .instr i → step s = exec i s.tick)
      ∧ (∀ a, s.phase = .await a → s.tp.isOpen = true →
          step s = .next { s.tick.afterRead 1 with phase := .judge a (s.tick.received 1) })
      ∧ (∀ a b rest, s.phase = .judge a (b :: rest) → decode s.par.sync a.ctx [b] = .instr i →
          step s = exec i s.tick)
      ∧ (s.phase = .hs .poll → s.tp.isOpen = true →
          step s = .next { s.tick.afterRead 1 with phase := .hs (.byte (s.tick.received 1)) })
      ∧ (∀ b rest, s.phase = .hs (.byte (b :: rest)) →
          step s = .next { s.tick with
            hs := { s.hs with nSeen := s.hs.nSeen + 1 }, phase := .hs (.shift b) })
      ∧ (∀ b, s.phase = .hs (.shift b) →
          step s = .next { s.tick with
            hs := { s.hs with vwin := s.hs.vwin.push b }, phase := .hs .look })
      ∧ (s.phase = .hs .look → decode s.par.sync .version s.hs.vwin.bytes = .instr i →
          step s = exec i s.tick)
      ∧ (∀ b rest, s.phase = .stream .bytes → s.str.chunk = b :: rest →
          step s = .next { s.tick with
            str := { s.str with chunk := rest }, phase := .stream (.byte b) })
      ∧ (∀ b, s.phase = .stream (.byte b) → s.str.abortSent = false →
          decode s.par.sync .stream [b] = .instr i → step s = exec i s.tick)
      ∧ (∀ b, s.phase = .stream (.byte b) → s.str.abortSent = true →
          step s = .next { s.tick with
            str := { s.str with awin := s.str.awin.push b }, phase := .stream .echo })
      ∧ (s.phase = .stream .echo → decode s.par.sync .echo s.str.awin.bytes = .instr i →
          step s = exec i s.tick)
      ∧ (s.phase = .scan → scanOver s.dec s.cap = false → 63 ≤ s.dec.t →
          decodeWindow s.par.sync (shiftIn s.dec.sr (s.cap.capBit s.dec.t)) = .instr i →
          step s = Answer.onNext (exec i (s.tick.setDec (s.dec.shift s.cap)))
            fun t => t.setDec t.dec.next)

/-- In each response context every byte decodes to an instruction. A step about to write bytes that are
no command of the alphabet is refused by name. A step of the scan whose shift register equals none
of the three constants only shifts and advances the cursor. (30_encoding.md, section 5) -/
def Obligations.BytesOutsideTheTablesActAsTheTablesSay : Prop :=
  (∀ (k : SyncWords) (a : Await) (b : Byte), ∃ i, decode k a.ctx [b] = .instr i)
    ∧ (∀ (s : State) (w : List Byte), s.phase = .issue w →
        (∀ i, decode s.par.sync .command w ≠ .instr i) → step s = .refused .illegalCommand)
    ∧ (∀ s : State, s.phase = .scan → scanOver s.dec s.cap = false → 63 ≤ s.dec.t →
        (∀ i, decodeWindow s.par.sync (shiftIn s.dec.sr (s.cap.capBit s.dec.t)) ≠ .instr i) →
        step s = .next (s.tick.setDec (s.dec.shift s.cap).next))

/-- At the pause before a command the step lets 1 ms pass (exactly, log entry 7), the next sets
lastCommand to its first byte, and the command is about to be written. With its command bytes about
to be written, a Transport Session and a write the channel accepts, each of rewind, head 0, head 1,
disable, diagnostics, density, check disk, check write protection (in Ready, ReadEnabled,
WriteEnabled), enable (in Ready, ReadEnabled) and features (in Syncing) answers the next state in
which the byte stands at the end of tp.tx, the clock has moved by the write (log entry 7), and the
engine awaits the response for the operation named in frames. Every other register, every flag and
every byte of memory (no form stores) is as before: the next state is written as an update of those
fields. (42_commands.md, sections 1 to 5, 41_handshake.md, section 2) -/
def Obligations.CommandsCompleteInTheirStates : Prop :=
  (∀ (s : State) (w : List Byte), s.phase = .pause w →
      step s = .next { s.tick with now := s.tick.now + 1, phase := .mark w })
    ∧ (∀ (s : State) (b : Byte) (w : List Byte), s.phase = .mark (b :: w) →
      step s = .next { s.tick with lastCommand := b, phase := .issue (b :: w) })
    ∧ ∀ (s : State) (w : List Byte), s.phase = .issue w → s.tp.isOpen = true → s.accepted 1 = 1 →
    (s.st.commands = true →
        exec .rewind s
            = .next { s.sent [0x2E] (.await .rsp1) with frames := .rewind :: s.frames }
          ∧ exec .head0 s = .next (s.sent [0x5B] (.await .rsp1))
          ∧ exec .head1 s = .next (s.sent [0x5D] (.await .rsp1))
          ∧ exec .disable s
            = .next { s.sent [0x2D] (.await .rsp1) with frames := .enableOff :: s.frames }
          ∧ exec .diagnostics s = .next (s.sent [0x26] (.await .rsp1))
          ∧ exec .density s
            = .next { s.sent [0x54] (.await .rsp1) with frames := .density :: s.frames }
          ∧ exec .checkDisk s = .next (s.sent [0x5E] (.await .diskPresence))
          ∧ exec .checkWp s = .next (s.sent [0x24] (.await .wpByte)))
      ∧ (s.st = .ready ∨ s.st = .readEnabled →
        exec .enable s
          = .next { s.sent [0x2B] (.await .rsp1) with frames := .enableOn :: s.frames })
      ∧ (s.st = .syncing →
        exec .features s
          = .next { s.sent [0x40] (.await .rsp1) with frames := .features :: s.frames })

/-- In a state that allows commands, with a Transport Session: for n up to 83 and a write the channel
accepts, the next state has 23, 30 + n div 10, 30 + n mod 10 at the end of tp.tx, the clock moved
(log entry 7), and the engine awaits the response of track selection; for n above 83 the next state
returns TrackRangeError and differs in lastError and the control register only. Every other
register, flag and byte of memory is as before. (42_commands.md, section 2, 30_encoding.md, section
4) -/
def Obligations.GotoTrackCompletes : Prop :=
  ∀ (n : Nat) (s : State) (w : List Byte), s.phase = .issue w → s.tp.isOpen = true →
    s.st.commands = true →
    (n ≤ 83 → s.accepted 3 = 3 →
        exec (.gotoTrack n) s
          = .next (s.sent [0x23, BitVec.ofNat 8 (0x30 + n / 10), BitVec.ofNat 8 (0x30 + n % 10)]
              (.await .rspT)))
      ∧ (83 < n →
        exec (.gotoTrack n) s
          = .next { s with lastError := .trackRangeError, phase := .ret .trackRangeError })

/-- In ReadEnabled, with a Transport Session and a write the channel accepts, { answers the next state
with its byte written and the stream start waiting for its response; < answers the next state with
its byte written and the block about to be polled (that the non-HD read writes like the other
commands is the model's choice, log entry 12). Every other register, flag and byte of memory is as
before. Each poll of the non-HD read adds the byte received to the block, or counts an empty poll;
the framing, a free value, then says that more is to come, and the read goes on, or how it ends: the
next steps write the framing's bits to the capture as far as they fit, set bitLength to their
number, and return OK, ReadResponseFailed or StatusError (polls, bits and codes are the model's
choice, log entry 12). (43_streaming_read.md, sections 1 and 4) -/
def Obligations.TrackReadCommandsComplete : Prop :=
  (∀ (s : State) (w : List Byte), s.phase = .issue w → s.tp.isOpen = true → s.accepted 1 = 1 →
      s.st = .readEnabled →
      exec .readStream s
          = .next { s.sent [0x7B] (.await .rsp1) with frames := .streamStart :: s.frames }
        ∧ exec .readTrack s
          = .next (s.sent [0x3C] .block))
    ∧ (∀ s : State, s.phase = .block → s.tp.isOpen = true →
      step s = .next { s.tick.afterRead 1 with phase := .framing (s.tick.received 1) })
    ∧ (∀ (s : State) (bs : List Byte), s.phase = .framing bs →
      step s = .next { s.tick with
        blk := if bs = [] then { s.blk with empty := s.blk.empty + 1 }
          else { got := s.blk.got ++ bs, empty := 0 }
        phase := .framed })
    ∧ (∀ s : State, s.phase = .framed →
      (Config.blockVerdict s.blk.got s.blk.empty = .more →
          step s = .next { s.tick with phase := .block })
        ∧ ∀ e bits, Config.blockVerdict s.blk.got s.blk.empty = .done e bits →
          ∃ t n c, step s = .next t ∧ (c = .ok ∨ c = .readResponseFailed ∨ c = .statusError)
            ∧ n = min bits.length (8 * s.cap.size)
            ∧ t = { s.tick with cap := { s.cap with buf := t.cap.buf }, phase := .length n c }
            ∧ ∀ j, j < n → bits[j]? = some (t.cap.bitAt j))
    ∧ ∀ (s : State) (n : Nat) (c : Code), s.phase = .length n c →
      step s = .next { s.tick with cap := { s.cap with bitLength := n }, phase := .exit c }

/-- In WriteEnabled, with a Transport Session: with writeProtected set both write commands return
WriteProtected without I/O; without it, and with a write the channel accepts, > and, for a buffer
whose runs between two 1 bits are 2 to 5 cells, } write their byte and await the response for the
payload that follows; } refuses a buffer with another run (that > is exchanged like } is the model's
choice, log entry 13). The worker's call is refused outside WriteEnabled; else with writeProtected
set it returns WriteProtected at once, with an illegal run in a precompensated write it is refused,
and otherwise it takes the buffer and pauses before } or > as the call says (log entry 13). It does
so for every bit count; the bits counted beyond the buffer are free values (the model's choice, log
entry 28). Every other register, flag and byte of memory is as before. (44_track_write.md, sections
1 and 2) -/
def Obligations.TrackWriteCommandsComplete : Prop :=
  (∀ (s : State) (w : List Byte), s.phase = .issue w → s.tp.isOpen = true → s.st = .writeEnabled →
    (s.writeProtected = true →
        exec .writeTrack s = .next { s with lastError := .writeProtected, phase := .ret .writeProtected }
          ∧ exec .writePrecomp s
            = .next { s with lastError := .writeProtected, phase := .ret .writeProtected })
      ∧ (s.writeProtected = false → s.accepted 1 = 1 →
        exec .writeTrack s
            = .next { s.sent [0x3E] (.await .rsp1) with frames := .payload false :: s.frames }
          ∧ (s.wr.transitions.all legalRun = true →
            exec .writePrecomp s
              = .next { s.sent [0x7D] (.await .rsp1) with frames := .payload true :: s.frames }))
      ∧ (s.writeProtected = false → s.wr.transitions.all legalRun = false →
        exec .writePrecomp s = .refused .badOperand))
    ∧ ∀ (s : State) (precomp : Bool) (mfm : List Byte) (nbits : Nat) (rest : List Op), s.phase = .idle →
      s.ops = .writeTrack precomp mfm nbits :: rest →
      ∀ wr : WriteBuf, wr = { mfm := mfm, nbits := nbits } →
      (s.st ≠ .writeEnabled → step s = .refused .wrongState)
        ∧ (s.st = .writeEnabled → s.writeProtected = true →
          step s = .next { s.tick with
            ops := rest, lastError := .writeProtected, phase := .ret .writeProtected })
        ∧ (s.st = .writeEnabled → s.writeProtected = false →
          (precomp = true → wr.transitions.all legalRun = true) →
          step s = .next { s.tick with
            ops := rest, wr := wr, phase := .pause [if precomp then 0x7D else 0x3E] })
        ∧ (s.st = .writeEnabled → s.writeProtected = false → precomp = true →
          wr.transitions.all legalRun = false → step s = .refused .badOperand)

/-- With a Transport Session, whatever part of the write the channel accepts: in Syncing the version
query sent as a kick, and in Streaming the abort byte, answer the next state with the accepted bytes
written and the clock moved (log entry 7). The step after the kick resets the count of empty polls
and goes on with the sync loop. The step after the abort byte sets abortSent; where a poll waits for
it the next sets userAbort and the poll follows, else the chunk goes on. lastCommand was set before
(CommandsCompleteInTheirStates); every other register, flag and byte of memory is as before.
(41_handshake.md, section 2, 43_streaming_read.md, section 3) -/
def Obligations.UnansweredCommandsComplete : Prop :=
  (∀ (s : State) (w : List Byte), s.phase = .issue w → s.tp.isOpen = true →
    (s.st = .syncing →
        exec .version s
          = .next { s with
              phase := .hs .kicked
              tp := { s.tp with tx := s.tp.tx ++ [0x3F].take (s.accepted 1) }
              now := s.now + if s.accepted 1 < 1 then deadline s.tp.wrTimeout 1
                else min s.cur.busy (deadline s.tp.wrTimeout 1) })
      ∧ (s.st = .streaming →
        exec .abort s
          = .next { s with
              phase := .stream .aborted
              tp := { s.tp with tx := s.tp.tx ++ [0x78].take (s.accepted 1) }
              now := s.now + if s.accepted 1 < 1 then deadline s.tp.wrTimeout 1
                else min s.cur.busy (deadline s.tp.wrTimeout 1) }))
    ∧ ∀ s : State,
      (s.phase = .hs .kicked →
        step s = .next { s.tick with hs := { s.hs with nEmpty := 0 }, phase := .hs .top })
      ∧ (∀ rest, s.phase = .stream .aborted → s.frames = .abortPoll :: rest →
        step s = .next { s.tick with
          str := { s.str with abortSent := true }, frames := rest, phase := .stream .user })
      ∧ (s.phase = .stream .aborted → s.frames.head? ≠ some .abortPoll →
        step s = .next { s.tick with str := { s.str with abortSent := true }, phase := .stream .bytes })
      ∧ (s.phase = .stream .user →
        step s = .next { s.tick with str := { s.str with userAbort := true }, phase := .stream .poll })

/-- For each of the fifteen commands whose write count is examined, where nothing before the write ends
it: if the channel accepts fewer bytes than the command has, in the next state the engine is about
to return SendFailed, the accepted bytes stand in tp.tx, the clock has moved by the write deadline
(log entry 7), the operation that waits for the command's code is the first of frames, and every
other register, flag and byte of memory is as before. That < and > return SendFailed so is the
model's choice (log entries 12 and 13). The step of an operation about to return a code returns it:
lastError is the code. (42_commands.md, section 1) -/
def Obligations.ShortCommandWriteReturnsSendFailed : Prop :=
  (∀ (s : State) (w : List Byte) (i : Instr), s.phase = .issue w → s.tp.isOpen = true →
    s.writes i = true →
    s.accepted (encode s.par.sync i).length < (encode s.par.sync i).length →
    exec i s = .next { s with
      phase := .exit .sendFailed
      tp := { s.tp with
              tx := s.tp.tx ++ (encode s.par.sync i).take (s.accepted (encode s.par.sync i).length) }
      now := s.now + deadline s.tp.wrTimeout (encode s.par.sync i).length
      frames := waitingFor i ++ s.frames })
    ∧ ∀ (s : State) (c : Code), s.phase = .exit c →
      step s = .next { s.tick with lastError := c, phase := .ret c }

/-- For each of the seventeen wire commands about to be written in an engine state that does not allow
it, the answer is the refusal wrongState; a refusal has no next state, so nothing is written.
(42_commands.md, section 1, 92_eei_decisions.md) -/
def Obligations.CommandsOutsideTheirStatesAreRefused : Prop :=
  ∀ (s : State) (w : List Byte) (i : Instr), s.phase = .issue w → i.ctx = .command →
    s.allows i = false → exec i s = .refused .wrongState

/-- A command while another operation is in flight is refused as busy; one that its engine state allows,
without a Transport Session, as noTransport; a response row in an engine place that judges no byte
of its format as noContext; so are the abort echo and stream data outside a stream, the version
reply outside the sync loop, and a sync constant outside the scan. (30_encoding.md, section 3,
93_implementation_defined.md) -/
def Obligations.RowsOutsideTheirExchangeAreRefused : Prop :=
  ∀ (s : State) (i : Instr),
    (i.ctx = .command → s.phase.isIssue = false → exec i s = .refused .busy)
      ∧ (i.ctx = .command → s.phase.isIssue = true → s.allows i = true → s.tp.isOpen = false →
          exec i s = .refused .noTransport)
      ∧ ((∃ a : Await, i.ctx = a.ctx) → (∀ a bs, s.phase = .judge a bs → a.ctx ≠ i.ctx) →
          exec i s = .refused .noContext)
      ∧ (i.ctx = .stream ∨ i.ctx = .echo → s.st ≠ .streaming → exec i s = .refused .noContext)
      ∧ (i.ctx = .version → s.st ≠ .syncing → exec i s = .refused .noContext)
      ∧ (i.ctx = .scan → s.phase ≠ .scan → exec i s = .refused .noContext)

/-- In the exchange that awaits it, each response row answers the next state that returns its code: 1, 0
and another byte to a simple command are OK, Error and StatusError; 1, 2, 0 and another byte to the
track command OK, OK, SelectTrackError and StatusError; another density byte leaves isHDMode with
StatusError; lastError and the control register change. H and D set and clear isHDMode, about to
return OK (which the next step does, ShortCommandWriteReturnsSendFailed); every other register, flag
and byte of memory is as before. (42_commands.md, sections 1, 2 and 4, 30_encoding.md, section 3) -/
def Obligations.OneByteResponsesReturnTheirCodes : Prop :=
  ∀ (s : State) (b : Byte) (bs : List Byte),
    (s.phase = .judge .rsp1 bs →
        exec .rsp1Ok s = .next { s with lastError := .ok, phase := .ret .ok }
          ∧ exec .rsp1Error s = .next { s with lastError := .error, phase := .ret .error }
          ∧ exec (.rsp1Other b) s = .next { s with lastError := .statusError, phase := .ret .statusError })
      ∧ (s.phase = .judge .rspT bs →
        exec .rsptMoved s = .next { s with lastError := .ok, phase := .ret .ok }
          ∧ exec .rsptAlready s = .next { s with lastError := .ok, phase := .ret .ok }
          ∧ exec .rsptFail s
            = .next { s with lastError := .selectTrackError, phase := .ret .selectTrackError }
          ∧ exec (.rsptOther b) s
            = .next { s with lastError := .statusError, phase := .ret .statusError })
      ∧ (s.phase = .judge .density bs →
        exec .densHd s = .next { s with isHDMode := true, phase := .exit .ok }
          ∧ exec .densDd s = .next { s with isHDMode := false, phase := .exit .ok }
          ∧ exec (.densOther b) s
            = .next { s with lastError := .statusError, phase := .ret .statusError })

/-- While check disk judges its first byte, each presence row answers the next state that holds it and
awaits the second. With the first byte held, or in check write protection, each write-protect row
answers the next state: after another first byte StatusError with the cache as it was, else
diskPresent written, and the next step writes writeProtected, about to return OK or NoDiskInDrive;
check write protection writes writeProtected, about to return OK. Every other register, flag and
byte of memory is as before. (42_commands.md, section 4) -/
def Obligations.DiskBytesUpdateTheCachedFlags : Prop :=
  ∀ (s : State) (b : Byte) (bs : List Byte),
    (s.phase = .judge .diskPresence bs →
        exec .rsp2NoDisk s = .next { s with phase := .await (.diskProtect .absent) }
          ∧ exec .rsp2Present s = .next { s with phase := .await (.diskProtect .present) }
          ∧ exec (.rsp2B0Other b) s = .next { s with phase := .await (.diskProtect .other) })
      ∧ (∀ (i : Instr) (p : Bool),
        (i = .rsp2Prot1 ∧ p = true) ∨ (i = .rsp2ProtHash ∧ p = true) ∨ (i = .rsp2B1Other b ∧ p = false) →
        (s.phase = .judge (.diskProtect .other) bs →
            exec i s = .next { s with lastError := .statusError, phase := .ret .statusError })
          ∧ (s.phase = .judge (.diskProtect .present) bs →
            exec i s = .next { s with
              diskPresent := true, phase := .protect p .ok })
          ∧ (s.phase = .judge (.diskProtect .absent) bs →
            exec i s = .next { s with
              diskPresent := false, phase := .protect p .noDiskInDrive })
          ∧ (s.phase = .judge .wpByte bs →
            exec i s = .next { s with writeProtected := p, phase := .exit .ok }))
      ∧ (∀ (p : Bool) (c : Code), s.phase = .protect p c →
        step s = .next { s.tick with writeProtected := p, phase := .exit c })

/-- Where the engine judges the final status byte, every byte decodes to a row whose meaning answers the
next state that returns OK for 1, WriteTimeout for X, FramingError for Y, SerialOverrun for Z and
StatusError for any other byte; each of the five rows answers so. lastError and the control register
change; every other register, flag and byte of memory is as before. (R226) -/
def Obligations.WriteStatusByteReturnsItsCode : Prop :=
  ∀ (s : State) (bs : List Byte), s.phase = .judge .rspW bs →
    exec .rspwClean s = .next { s with lastError := .ok, phase := .ret .ok }
      ∧ exec .rspwTimeout s = .next { s with lastError := .writeTimeout, phase := .ret .writeTimeout }
      ∧ exec .rspwFraming s = .next { s with lastError := .framingError, phase := .ret .framingError }
      ∧ exec .rspwOverrun s = .next { s with lastError := .serialOverrun, phase := .ret .serialOverrun }
      ∧ (∀ b : Byte,
          exec (.rspwOther b) s = .next { s with lastError := .statusError, phase := .ret .statusError })
      ∧ (∀ (k : SyncWords) (b : Byte), ∃ i c, decode k .rspW [b] = .instr i
          ∧ exec i s = .next { s with lastError := c, phase := .ret c }
          ∧ c = if b = 0x31 then .ok else if b = 0x58 then .writeTimeout
                else if b = 0x59 then .framingError else if b = 0x5A then .serialOverrun
                else .statusError)

/-- Where the echo window is looked at after the abort byte was sent, the abort echo answers the next
state with bitLength the bits written; the next step clears abortRequested, and the one after it
leads to ReadEnabled, about to return OK or, after a cancellation, Cancelled. Every other register,
flag and byte of memory is as before, or as after the environment's part of the step.
(43_streaming_read.md, section 3) -/
def Obligations.AbortEchoEndsTheRead : Prop :=
  ∀ s : State,
    (s.st = .streaming → s.phase = .stream .echo → s.str.abortSent = true →
        exec .abortEcho s = .next { s with
          cap := { s.cap with bitLength := 8 * s.str.wcur.pos + s.str.wcur.bit }
          phase := .stream .leaveFlag })
      ∧ (s.phase = .stream .leaveFlag →
        step s = .next { s.tick with abortRequested := false, phase := .stream .leaveState })
      ∧ (s.phase = .stream .leaveState →
        step s = .next { s.tick with
          st := .readEnabled, phase := .exit (if s.str.userAbort then .cancelled else .ok) })

/-- Where the window of the sync loop is looked at, the version reply answers the next state with its
major digit in firmwareVersion; the next step records its minor digit, and the one after it sets
fullControlMod, true exactly for a dot where FCM_DOT is, with the purges to follow. Every other
register, flag and byte of memory is as before, or as after the environment's part of the step.
(41_handshake.md, section 2, 30_encoding.md, section 4) -/
def Obligations.VersionReplyRecordsTheVersion : Prop :=
  ∀ (s : State) (major minor : BitVec 4) (dot : Bool),
    (s.st = .syncing → s.phase = .hs .look →
        exec (.versionReply major dot minor) s
          = .next { s with fw := { s.fw with major := major }, phase := .hs (.minor minor dot) })
      ∧ (s.phase = .hs (.minor minor dot) →
        step s = .next { s.tick with fw := { s.fw with minor := minor }, phase := .hs (.control dot) })
      ∧ (s.phase = .hs (.control dot) →
        step s = .next { s.tick with
          fw := { s.fw with fullControlMod := dot && s.par.fcmDot }, phase := .hs .purge1 })

/-- Before the abort byte was sent, with the write cursor inside the buffer: a data byte answers a next
state, in which its first bit is written, or none where the buffer is full or the byte has none; and
after two steps for each of its bits that has room, and one more, in every environment, the bits of
its symbols, pair 7:6 first, stand behind those written before as far as the buffer has room, every
other capture bit is as before, the cursor has moved by just these bits, and the engine is about to
write the abort byte exactly if the buffer is full. But for the environment's parts of the steps,
only the buffer, the cursor and the control register change; the capture keeps its canonical form.
(R203) -/
def Obligations.DataByteAppendsItsSymbols : Prop :=
  ∀ (s : State) (b : Byte), s.st = .streaming → s.phase = .stream (.byte b) → s.str.abortSent = false →
    s.cap.buf.wf = true → s.str.wcur.bit < 8 → s.str.wcur.linear ≤ 8 * s.cap.size →
    streamBits s.par b = symbolBits s.par (b.extractLsb' 6 2) ++ symbolBits s.par (b.extractLsb' 4 2)
        ++ symbolBits s.par (b.extractLsb' 2 2) ++ symbolBits s.par (b.extractLsb' 0 2)
      ∧ exec (.streamData b) s = .next (
        if s.str.wcur.linear = 8 * s.cap.size then { s with phase := .mark [0x78] }
        else match streamBits s.par b with
          | [] => { s with phase := .stream .bytes }
          | x :: xs => { s with
              cap := { s.cap with buf := (writeBit s.cap.size s.cap.buf s.str.wcur x).1 }
              phase := .stream (.advance xs) })
      ∧ ∃ t, steps (2 * min (streamBits s.par b).length (8 * s.cap.size - s.str.wcur.linear) + 1) s
          = .next t
        ∧ t = { s with
            cap := { s.cap with buf := t.cap.buf }, str := { s.str with wcur := t.str.wcur }
            phase := t.phase, now := t.now, abortRequested := t.abortRequested, tp := t.tp
            env := t.env, beyond := t.beyond, cur := t.cur }
        ∧ t.cap.buf.wf = true ∧ t.str.wcur.bit < 8
        ∧ t.str.wcur.linear
          = s.str.wcur.linear + min (streamBits s.par b).length (8 * s.cap.size - s.str.wcur.linear)
        ∧ (∀ j, t.cap.bitAt j =
            if s.str.wcur.linear ≤ j ∧ j < t.str.wcur.linear then
              (streamBits s.par b).getD (j - s.str.wcur.linear) false
            else s.cap.bitAt j)
        ∧ t.phase = if t.str.wcur.linear = 8 * s.cap.size then .mark [0x78] else .stream .bytes

/-- Where a window is being tested, an IAM match answers the next state with prevEnd none; headerFound,
lastSector, the track, every other decoder register, every other register, flag and byte of memory
is as before. (R245) -/
def Obligations.IndexMarkForgetsTheGapStart : Prop :=
  ∀ s : State, s.phase = .scan → 63 ≤ s.dec.t →
    exec .syncIam s = .next { s with dec := { s.dec with prevEnd := none } }

/-- Where a window is being tested, an IDAM match at s = t - 63 answers the next state: a gap of (s -
prevEnd) div 16 bytes is counted if prevEnd is set and not after s, prevEnd is cleared, and the ten
bytes extracted at s give the latched header with its sector number clamped to 1 and one error each
for a CRC mismatch, sector number 0, another cylinder and another head. Every other register, flag
and byte of memory is as before. (R246, R248) -/
def Obligations.IdMarkLatchesItsHeader : Prop :=
  ∀ s : State, s.phase = .scan → 63 ≤ s.dec.t →
    exec .syncIdam s
      = .next { s with
          dec := { s.dec with
            gapTotal := match s.dec.prevEnd with
              | none => s.dec.gapTotal
              | some e => if e ≤ s.dec.t - 63 then s.dec.gapTotal + (s.dec.t - 63 - e) / 16 else s.dec.gapTotal
            numGaps := match s.dec.prevEnd with
              | none => s.dec.numGaps
              | some e => if e ≤ s.dec.t - 63 then s.dec.numGaps + 1 else s.dec.numGaps
            prevEnd := none
            hdr := {
              c := ((s.cap.extract (s.dec.t - 63) 10).getD 4 0).toNat
              h := ((s.cap.extract (s.dec.t - 63) 10).getD 5 0).toNat
              r := max 1 ((s.cap.extract (s.dec.t - 63) 10).getD 6 0).toNat
              n := ((s.cap.extract (s.dec.t - 63) 10).getD 7 0).toNat }
            hdrErr :=
              (if crc16 ((s.cap.extract (s.dec.t - 63) 10).take 8)
                  = storedCrc ((s.cap.extract (s.dec.t - 63) 10).getD 8 0)
                      ((s.cap.extract (s.dec.t - 63) 10).getD 9 0) then 0 else 1)
                + (if ((s.cap.extract (s.dec.t - 63) 10).getD 6 0).toNat < 1 then 1 else 0)
                + (if ((s.cap.extract (s.dec.t - 63) 10).getD 4 0).toNat ≠ s.dec.cylinder then 1 else 0)
                + (if ((s.cap.extract (s.dec.t - 63) 10).getD 5 0).toNat ≠ s.dec.head then 1 else 0)
            headerFound := true
            lastSector := max 1 ((s.cap.extract (s.dec.t - 63) 10).getD 6 0).toNat } }

/-- Where a window is being tested, a DAM match at s = t - 63 answers the next state. Without a latched
header one is guessed: the operands' cylinder and head, the sector after the last seen, size code 2,
error count SYNTH_ERR. A size code above 7 drops the record and clears prevEnd; else 128 shifted by
the size code payload bytes are inserted under the header's sector number with the header's errors
plus one for a data CRC mismatch, and prevEnd is the position after the record. headerFound is
cleared. Every other register, flag and byte of memory is as before. (R251, R252, R253, R254, R256) -/
def Obligations.DataMarkStoresItsSector : Prop :=
  ∀ s : State, s.phase = .scan → 63 ≤ s.dec.t →
    ∃ d : Decoder,
      d = (if s.dec.headerFound then s.dec
        else { s.dec with
          hdr := { c := s.dec.cylinder, h := s.dec.head, r := s.dec.lastSector + 1, n := 2 }
          hdrErr := s.par.synthErr, headerFound := true, lastSector := s.dec.lastSector + 1 })
      ∧ (7 < d.hdr.n →
        exec .syncDam s = .next { s with dec := { d with headerFound := false, prevEnd := none } })
      ∧ (d.hdr.n ≤ 7 →
        exec .syncDam s
          = .next { s with
              dec := { d with
                trk := d.trk.insertSector d.hdr.r
                  (((s.cap.extract (s.dec.t - 63) (4 + 2 ^ (7 + d.hdr.n) + 2)).drop 4).take
                    (2 ^ (7 + d.hdr.n)))
                  (d.hdrErr +
                    if crc16 ((s.cap.extract (s.dec.t - 63) (4 + 2 ^ (7 + d.hdr.n) + 2)).take
                          (4 + 2 ^ (7 + d.hdr.n)))
                        = storedCrc
                          ((s.cap.extract (s.dec.t - 63) (4 + 2 ^ (7 + d.hdr.n) + 2)).getD
                            (4 + 2 ^ (7 + d.hdr.n)) 0)
                          ((s.cap.extract (s.dec.t - 63) (4 + 2 ^ (7 + d.hdr.n) + 2)).getD
                            (4 + 2 ^ (7 + d.hdr.n) + 1) 0) then 0 else 1)
                prevEnd := some (s.dec.t - 63 + 16 * (4 + 2 ^ (7 + d.hdr.n) + 2))
                headerFound := false } })

/-- In a state that allows commands, for every command byte that may be run (which ones may, # alone and
a CMD_ENABLEWRITE or CMD_RESET equal to ?, @ or x among them, is the model's choice, log entry 22),
every acceptance of the two writes and every bytes sent in answer: without a parameter the operation
ends after a pause of at least 1 ms, the write and the read with SendFailed, ReadResponseFailed, OK,
Error or StatusError as the pseudocode has it; with one, after both writes, with SendParameterFailed
if the second is not accepted. tp.tx holds what was accepted, tp.rx what was not read, lastCommand
the command byte; everything else is as before. (42_commands.md, section 1) -/
def Obligations.CommandPrimitiveReturnsItsCode : Prop :=
  ∀ (s : State) (c : Byte) (accepted : Bool) (rsp : List Byte), s.st.commands = true →
    mayRun s.par c = true →
    (∃ now, s.now + 1 ≤ now ∧ steps 7 (s.asked (.runCommand c none)
          (Move.exchange accepted rsp))
        = .next ((s.asked (.runCommand c none) []).finished c (if accepted then [c] else [])
            (leftOver accepted 1 rsp) (commandCode accepted rsp) now))
      ∧ (∀ (p : Byte) (accepted' : Bool), ∃ now,
        s.now + 1 ≤ now ∧ steps 8 (s.asked (.runCommand c (some p))
            [Move.quiet, Move.quiet, Move.quiet, Move.accepting accepted, Move.accepting accepted',
              Move.sending rsp])
          = .next ((s.asked (.runCommand c (some p)) []).finished c
              (if accepted then c :: (if accepted' then [p] else []) else [])
              (leftOver (accepted && accepted') 1 rsp)
              (if accepted then if accepted' then responseCode rsp else .sendParameterFailed
                else .sendFailed) now))

/-- In a state that allows commands, for every acceptance of the write and every bytes sent in answer,
rewind ends with OK exactly when runCommand's code is OK and with RewindFailure otherwise;
lastCommand is the dot, tp.tx and tp.rx are as the exchange leaves them, everything else is as
before. (R174) -/
def Obligations.RewindReturnsRewindFailure : Prop :=
  ∀ (s : State) (accepted : Bool) (rsp : List Byte), s.st.commands = true →
    ∃ now, s.now + 1 ≤ now ∧ steps 8 (s.asked .rewind (Move.exchange accepted rsp))
      = .next ((s.asked .rewind []).finished 0x2E (if accepted then [0x2E] else [])
          (leftOver accepted 1 rsp)
          (if commandCode accepted rsp = .ok then .ok else .rewindFailure) now)

/-- In a state that allows commands, for every acceptance and every bytes sent: selecting head 0 writes
[, head 1 writes ], diagnostics writes &, and each returns the code of the command/response
primitive unchanged; lastCommand, tp.tx and tp.rx are as the exchange leaves them, everything else
is as before. (R178, R186) -/
def Obligations.HeadSelectAndDiagnosticsReturnTheCode : Prop :=
  ∀ (s : State) (accepted : Bool) (rsp : List Byte) (o : Op) (c : Byte), s.st.commands = true →
    (o = .selectSurface 0 ∧ c = 0x5B) ∨ (o = .selectSurface 1 ∧ c = 0x5D) ∨ (o = .diagnostics ∧ c = 0x26) →
    ∃ now, s.now + 1 ≤ now ∧ steps 7 (s.asked o (Move.exchange accepted rsp))
      = .next ((s.asked o []).finished c (if accepted then [c] else []) (leftOver accepted 1 rsp)
          (commandCode accepted rsp) now)

/-- In a state that allows commands: for n up to 83, every acceptance and every bytes sent, the three
bytes are written and the code is SendFailed, ReadResponseFailed, OK for 1 and 2, SelectTrackError
for 0, StatusError for another byte. For n above 83 the code is TrackRangeError, lastCommand and
tp.tx are as before, nothing is read and no time passes. Everything else is as before. (R176) -/
def Obligations.SelectTrackReturnsItsCode : Prop :=
  ∀ (s : State) (n : Nat) (accepted : Bool) (rsp : List Byte), s.st.commands = true →
    (n ≤ 83 → ∃ now, s.now + 1 ≤ now ∧
      steps 7 (s.asked (.selectTrack n) (Move.exchange accepted rsp))
        = .next ((s.asked (.selectTrack n) []).finished 0x23
            (if accepted then [0x23, BitVec.ofNat 8 (0x30 + n / 10), BitVec.ofNat 8 (0x30 + n % 10)]
              else [])
            (leftOver accepted 1 rsp)
            (if accepted then
              match rsp with
              | [] => .readResponseFailed
              | b :: _ => if b = 0x31 ∨ b = 0x32 then .ok
                else if b = 0x30 then .selectTrackError else .statusError
              else .sendFailed) now))
      ∧ (83 < n →
        steps 6 (s.asked (.selectTrack n) (Move.exchange accepted rsp))
          = .next ((s.asked (.selectTrack n) []).finished s.lastCommand [] rsp .trackRangeError s.now))

/-- For every acceptance and every bytes sent: enableReading(true) in Ready or ReadEnabled leads to
ReadEnabled on OK and is refused in WriteEnabled; enableReading(false) leads to Ready on OK from
each state that allows commands; enableWriting sends the parameter CMD_ENABLEWRITE and leads from
Ready to WriteEnabled on OK and moves no other state (that it sends its byte in ReadEnabled and
WriteEnabled and leaves them is the model's choice, log entry 23). Another code leaves the engine
state. lastError, lastCommand, tp.tx and tp.rx are as the exchange leaves them, everything else is
as before. (42_commands.md, section 3, 44_track_write.md, section 1) -/
def Obligations.MotorAndWriteEnableMoveTheState : Prop :=
  ∀ (s : State) (accepted : Bool) (rsp : List Byte),
    (s.st = .ready ∨ s.st = .readEnabled → ∃ now, s.now + 1 ≤ now ∧
        steps 9 (s.asked (.enableReading true) (Move.exchange accepted rsp))
          = .next { (s.asked (.enableReading true) []).finished 0x2B (if accepted then [0x2B] else [])
                (leftOver accepted 1 rsp) (commandCode accepted rsp) now with
              st := if commandCode accepted rsp = .ok then .readEnabled else s.st })
      ∧ (s.st = .writeEnabled →
        steps 5 (s.asked (.enableReading true) (Move.exchange accepted rsp))
          = .refused .wrongState)
      ∧ (s.st.commands = true → ∃ now, s.now + 1 ≤ now ∧
        steps 9 (s.asked (.enableReading false) (Move.exchange accepted rsp))
          = .next { (s.asked (.enableReading false) []).finished 0x2D (if accepted then [0x2D] else [])
                (leftOver accepted 1 rsp) (commandCode accepted rsp) now with
              st := if commandCode accepted rsp = .ok then .ready else s.st })
      ∧ (s.st.commands = true → ∃ now, s.now + 1 ≤ now ∧
        steps 9 (s.asked .enableWriting (Move.exchange accepted rsp))
          = .next { (s.asked .enableWriting []).finished s.par.cmdEnableWrite
                (if accepted then [s.par.cmdEnableWrite] else []) (leftOver accepted 1 rsp)
                (commandCode accepted rsp) now with
              st := if commandCode accepted rsp = .ok ∧ s.st = .ready then .writeEnabled else s.st })

/-- In a state that allows commands: the unforced check answers from diskPresent without I/O. The forced
one, for every acceptance and every bytes sent, returns SendFailed, or ReadResponseFailed unless two
bytes come, or StatusError with the cache unchanged for another first byte, or writes diskPresent
and writeProtected and returns OK or NoDiskInDrive. Everything else is as the exchange leaves it or
as before. (R182) -/
def Obligations.CheckDiskSettlesTheCachedFlags : Prop :=
  ∀ (s : State) (accepted : Bool) (rsp : List Byte), s.st.commands = true →
    steps 2 (s.asked (.checkDisk false) [])
        = .next ((s.asked (.checkDisk false) []).finished s.lastCommand [] []
            (if s.diskPresent then .ok else .noDiskInDrive) s.now)
      ∧ ∃ now, s.now + 1 ≤ now ∧ ∀ u, u = (fun c => (s.asked (.checkDisk true) []).finished 0x5E
            (if accepted then [0x5E] else []) (leftOver accepted 2 rsp) c now) →
        steps 11 (s.asked (.checkDisk true) (Move.exchange accepted rsp))
          = .next (
            if accepted = false then u .sendFailed
            else match rsp with
              | p :: w :: _ =>
                if p ≠ 0x31 ∧ p ≠ 0x23 then u .statusError
                else { u (if p = 0x31 then .ok else .noDiskInDrive) with
                    diskPresent := p == 0x31, writeProtected := w == 0x31 || w == 0x23 }
              | _ => u .readResponseFailed)

/-- In a state that allows commands, for every acceptance and every bytes sent: checkWriteProtect
returns SendFailed or ReadResponseFailed, or writes writeProtected from the first byte and returns
OK. checkDensity returns the primitive's code unless it is OK; then ReadResponseFailed without a
second byte, OK with isHDMode true for H and false for D, StatusError with isHDMode as it was for
another. Everything else is as the exchange leaves it or as before. (R183, R184) -/
def Obligations.ProtectionAndDensityChecksSettleTheirFlags : Prop :=
  ∀ (s : State) (accepted : Bool) (rsp : List Byte), s.st.commands = true →
    (∃ now, s.now + 1 ≤ now ∧ ∀ u, u = (fun c => (s.asked .checkWriteProtect []).finished 0x24
          (if accepted then [0x24] else []) (leftOver accepted 1 rsp) c now) →
        steps 8 (s.asked .checkWriteProtect (Move.exchange accepted rsp))
          = .next (
            if accepted = false then u .sendFailed
            else match rsp with
              | [] => u .readResponseFailed
              | w :: _ => { u .ok with writeProtected := w == 0x31 || w == 0x23 }))
      ∧ (∃ now, s.now + 1 ≤ now ∧ ∀ u, u = (fun n c => (s.asked .checkDensity []).finished 0x54
          (if accepted then [0x54] else []) (leftOver accepted n rsp) c now) →
        steps 11 (s.asked .checkDensity (Move.exchange accepted rsp))
          = .next (
            if commandCode accepted rsp ≠ .ok then u 1 (commandCode accepted rsp)
            else match rsp with
              | _ :: d :: _ =>
                if d = 0x48 then { u 2 .ok with isHDMode := true }
                else if d = 0x44 then { u 2 .ok with isHDMode := false }
                else u 2 .statusError
              | _ => u 1 .readResponseFailed))

/-- The worker's call of readTrack is refused outside ReadEnabled; there it begins with an empty capture
of the capacity in force, no attempt made and an empty block, and with the pause before { if
isHDMode, before < otherwise. When the stream-start command has returned: OK clears abortRequested,
and in a quiet environment six more steps, one register each, lead to Streaming at the top of the
loop with the loop's registers at their initial values; another code counts the attempt and pauses
to send the command again after the first, and after the second is about to be returned with
bitLength 0, the engine state as it was. Everything else is as after the environment's part of the
step. (43_streaming_read.md, sections 1 and 3) -/
def Obligations.StreamStartEntersStreamingOrRetriesOnce : Prop :=
  (∀ (s : State) (rest : List Op), s.phase = .idle → s.ops = .readTrack :: rest →
      (s.st ≠ .readEnabled → step s = .refused .wrongState)
        ∧ (s.st = .readEnabled → step s = .next { s.tick with
          ops := rest, phase := .pause [if s.isHDMode then 0x7B else 0x3C]
          cap := { buf := [], size := s.par.capBytes s.isHDMode, bitLength := 0 }
          str := { s.str with startTries := 0 }, blk := { got := [], empty := 0 } }))
    ∧ ∀ (s : State) (c : Code) (rest : List Frame), s.phase = .ret c → s.frames = .streamStart :: rest →
    (c = .ok →
        step s = .next { s.tick with
          abortRequested := false, frames := rest, phase := .stream .enter })
      ∧ (c = .ok → s.Quiet →
        steps 7 s = .next { s with
          st := .streaming, abortRequested := false, frames := rest, phase := .stream .top
          cur := Move.quiet
          str := { s.str with
            awin := { b0 := 0, b1 := 0, b2 := 0, b3 := 0, b4 := 0 }, nStall := 0, abortSent := false
            userAbort := false, wcur := { pos := 0, bit := 0 } } })
      ∧ (c ≠ .ok →
        step s = .next { s.tick with
          frames := rest, str := { s.str with startTries := s.str.startTries + 1 }
          phase := if s.str.startTries = 0 then .pause [0x7B] else .length 0 c })

/-- At the top of the loop the flag, as the environment's last write leaves it, sends the engine to
record and write the abort byte if none was sent, with the poll waiting, and to the poll otherwise;
every other step of the streamed read is the same whatever the flag was. A poll takes at most 64
bytes, the next step makes those it found the chunk, and the one after it clears nStall if there are
any; the bytes of a chunk are used from the first on (StepRunsTheDecodedInstruction), and after the
last the engine is at the top of the loop. (43_streaming_read.md, section 2, 60_exceptions.md,
section 2) -/
def Obligations.AbortFlagIsTakenBetweenChunksOnly : Prop :=
  ∀ s : State,
    (s.phase = .stream .top →
        step s =
          if s.tick.abortRequested = true ∧ s.str.abortSent = false then
            .next { s.tick with frames := .abortPoll :: s.frames, phase := .mark [0x78] }
          else .next { s.tick with phase := .stream .poll })
      ∧ (∀ k v t, s.phase = .stream k → k ≠ .top → step s = .next t →
        ∃ u, step { s with abortRequested := v } = .next u
          ∧ { u with abortRequested := t.abortRequested } = t)
      ∧ (s.phase = .stream .poll → s.tp.isOpen = true →
        (s.tick.received 64).length ≤ 64
          ∧ step s = .next { s.tick.afterRead 64 with phase := .stream (.chunk (s.tick.received 64)) })
      ∧ (∀ bs, s.phase = .stream (.chunk bs) →
        step s = .next { s.tick with str := { s.str with chunk := bs }, phase := .stream .got })
      ∧ (s.phase = .stream .got → s.str.chunk ≠ [] →
        step s = .next { s.tick with str := { s.str with nStall := 0 }, phase := .stream .bytes })
      ∧ (s.phase = .stream .bytes → s.str.chunk = [] →
        step s = .next { s.tick with phase := .stream .top })

/-- In a quiet environment with nothing to receive, before or after the abort byte: from the top of the
loop with n empty polls counted, the 30 - n polls that are left end the read: abortRequested
cleared, ReadEnabled, and the disk check is about to be sent; whatever code the check returns,
bitLength is then the bits written and the read is about to return ReadResponseFailed. No abort byte
is written. (R208) -/
def Obligations.ThirtyEmptyPollsEndTheRead : Prop :=
  (∀ s : State, s.st = .streaming → s.phase = .stream .top → s.tp.isOpen = true → s.Quiet →
      s.tp.rx = [] → s.str.nStall < 30 → (s.abortRequested = false ∨ s.str.abortSent = true) →
      ∃ now, steps (4 * (30 - s.str.nStall) + 2) s
        = .next { s with
            st := .readEnabled, abortRequested := false, cur := Move.quiet, now := now
            str := { s.str with nStall := 30, chunk := [] }
            frames := .stalled :: s.frames, phase := .pause [0x5E] })
    ∧ (∀ (s : State) (c : Code) (rest : List Frame), s.phase = .ret c → s.frames = .stalled :: rest →
      step s = .next { s.tick with
        cap := { s.cap with bitLength := 8 * s.str.wcur.pos + s.str.wcur.bit }
        frames := rest, phase := .exit .readResponseFailed })

/-- In Streaming after the abort byte was sent, with a chunk that holds bytes, then the five bytes of
the echo, then more, and with no echo completed earlier in the window run over them: after three
steps for each byte up to the echo's end and three more, whatever the environment does, the read has
ended in ReadEnabled (abortRequested cleared on the way, AbortEchoEndsTheRead), the capture as it
was with bitLength the bits written, the rest of the chunk unused, and OK or, after a cancellation,
Cancelled. (43_streaming_read.md, section 3) -/
def Obligations.EchoAnywhereInTheChunkEndsTheRead : Prop :=
  ∀ (s : State) (pre post : List Byte), s.st = .streaming → s.phase = .stream .bytes →
    s.str.abortSent = true → s.str.chunk = pre ++ [0x58, 0x59, 0x5A, 0x78, 0x31] ++ post →
    (∀ k, k < pre.length + 4 →
      ((s.str.awin.bytes ++ s.str.chunk).drop (k + 1)).take 5 ≠ [0x58, 0x59, 0x5A, 0x78, 0x31]) →
    ∃ t, steps (3 * (pre.length + 5) + 3) s = .next t
      ∧ t.st = .readEnabled
      ∧ t.cap = { s.cap with bitLength := 8 * s.str.wcur.pos + s.str.wcur.bit }
      ∧ t.str.chunk = post ∧ t.frames = s.frames
      ∧ t.lastError = (if s.str.userAbort then .cancelled else .ok)
      ∧ t.phase = .ret (if s.str.userAbort then .cancelled else .ok)

/-- In Streaming after the abort byte was sent, with a chunk over which the window completes no echo:
after its last byte, whatever the environment does, the engine is at the top of the loop, still in
Streaming with the abort byte counted as sent, the capture as it was and the last five bytes in the
window. Every step of the loop that writes no capture bit, finds no echo and is no 30th empty poll
stays in the loop, in Streaming, with the abort byte counted as sent. And with a device that sends
one byte, not the last of the echo, before every step for ever, and none of that byte waiting, the
read is in Streaming after any number of steps: the hang. (43_streaming_read.md, section 3) -/
def Obligations.StreamWithoutEchoNeverLeavesStreaming : Prop :=
  (∀ s : State, s.st = .streaming → s.phase = .stream .bytes → s.str.abortSent = true →
      (∀ k, k < s.str.chunk.length →
        ((s.str.awin.bytes ++ s.str.chunk).drop (k + 1)).take 5 ≠ [0x58, 0x59, 0x5A, 0x78, 0x31]) →
      ∃ t, steps (3 * s.str.chunk.length + 1) s = .next t
        ∧ t.st = .streaming ∧ t.phase = .stream .top ∧ t.str.abortSent = true ∧ t.cap = s.cap
        ∧ t.str.awin.bytes = (s.str.awin.bytes ++ s.str.chunk).drop s.str.chunk.length)
    ∧ (∀ (s : State) (k : StreamStep), s.st = .streaming → s.phase = .stream k →
      k.waiting = true → s.str.abortSent = true → s.tp.isOpen = true →
      (k = .got → s.str.chunk = [] → s.str.nStall + 1 < 30) →
      (k = .echo → s.str.awin.bytes ≠ [0x58, 0x59, 0x5A, 0x78, 0x31]) →
      ∃ t k', step s = .next t ∧ t.st = .streaming ∧ t.phase = .stream k' ∧ k'.waiting = true
        ∧ t.str.abortSent = true ∧ t.cap = s.cap)
    ∧ (∀ (s : State) (b : Byte), s.st = .streaming → s.phase = .stream .top →
      s.str.abortSent = true → s.tp.isOpen = true → s.env = [] →
      s.beyond = .again [Move.sending [b]] → b ≠ 0x31 → (∀ x ∈ s.tp.rx, x ≠ 0x31) →
      ∀ n, ∃ t, steps n s = .next t ∧ t.st = .streaming)

/-- From Closed, for every operands, with the environment answering open and configure, accepting the
opening write whole and doing nothing else (log entry 6): an open that fails returns the code of its
failure (Generic for the failure Other) with the state Closed; a configure that fails releases the
port and returns ConfigError in Closed; otherwise the engine is in Syncing at the top of the sync
loop with the port raw 8N1 at BAUD, DTR asserted, the two handshake timeouts set, the three bytes
written, lastCommand ?, and the loop's registers at their initial values. The registers of a session
that no rule gives a value at open, CTS and the FIFOs among them, are those of log entry 21, the
model's choice. Everything else is as before. (41_handshake.md, section 2, 60_exceptions.md, section
1) -/
def Obligations.OpenPortReachesTheSyncLoop : Prop :=
  ∀ (s : State) (path : String) (flow reset : Bool) (line : Line) (dtr rts : Bool) (e : PortError),
    s.st = .closed → s.phase = .idle → s.frames = [] → s.ops = [.openPort path flow reset] →
    s.beyond = .again [] →
    ∀ u : State, u = { s with
        ops := [], env := [], cur := Move.quiet
        hs := { s.hs with path := path, ctsFlow := flow, triggerReset := reset } } →
    (s.env = [Move.quiet, { Move.quiet with openAnswer := .failed e }] →
        steps 4 s = .next { u with
          lastError := match e with
            | .notFound => .notFound
            | .inUse => .inUse
            | .accessDenied => .accessDenied
            | .other => .generic })
      ∧ (s.env = [Move.quiet, { Move.quiet with openAnswer := .opened line dtr rts },
            { Move.quiet with configOk := false }] →
        steps 6 s = .next { u with lastError := .configError, tp := Transport.absent line })
      ∧ (s.env = [Move.quiet, { Move.quiet with openAnswer := .opened line dtr rts }] →
        steps 12 s = .next { u with
          st := .syncing, lastCommand := 0x3F, phase := .hs .top
          hs := {
            vwin := { b0 := 0, b1 := 0, b2 := 0, b3 := 0, b4 := 0 }, nSeen := 0, nEmpty := 0
            t0 := s.now, path := path, ctsFlow := flow, triggerReset := reset }
          tp := { Transport.absent line with
            isOpen := true, path := path, line := .raw8N1 s.par.baud flow, dtr := true, rts := rts
            rdTimeout := s.par.syncRd, wrTimeout := s.par.syncWr
            tx := [0x78, s.par.cmdReset, 0x3F] } })

/-- In Syncing at the top of the sync loop, in a quiet environment, within 8 s and with the reply's last
byte at most the 2049th received: if the receive FIFO holds any bytes, then 1 V, a major digit 1 to
9, a comma or a dot, a minor digit, then more, and the window run over them matches no earlier, then
after five steps for each byte and two more the engine is about to purge, with the version recorded,
the count advanced, the rest still in the FIFO and the capture as it was. (41_handshake.md, section
2) -/
def Obligations.HandshakeFindsTheVersionAtAnyOffset : Prop :=
  ∀ (s : State) (pre post : List Byte) (major sep minor : Byte), s.st = .syncing →
    s.phase = .hs .top → s.tp.isOpen = true → s.Quiet → s.now < s.hs.t0 + 8000 →
    s.hs.nSeen + pre.length + 5 ≤ 2049 →
    s.tp.rx = pre ++ [0x31, 0x56, major, sep, minor] ++ post →
    0x31 ≤ major.toNat → major.toNat ≤ 0x39 → (sep = 0x2C ∨ sep = 0x2E) → 0x30 ≤ minor.toNat →
    minor.toNat ≤ 0x39 →
    (∀ k, k < pre.length + 4 →
      decodeVersion (((s.hs.vwin.bytes ++ s.tp.rx).drop (k + 1)).take 5) = .reject .notVersion) →
    ∃ t, steps (5 * (pre.length + 5) + 2) s = .next t
      ∧ t.phase = .hs .purge1 ∧ t.st = .syncing
      ∧ t.fw = { s.fw with
          major := BitVec.ofNat 4 (major.toNat - 0x30), minor := BitVec.ofNat 4 (minor.toNat - 0x30)
          fullControlMod := sep == 0x2E && s.par.fcmDot }
      ∧ t.hs.nSeen = s.hs.nSeen + pre.length + 5 ∧ t.tp.rx = post ∧ t.tp.tx = s.tp.tx
      ∧ t.cap = s.cap ∧ t.lastError = s.lastError ∧ t.frames = s.frames

/-- In the sync loop: in a quiet environment with nothing received and nothing to receive, seven empty
polls, each of which lasts exactly to its deadline (log entry 7), within 8 s lead to the version
query about to be written. At 8 s or later the top of the loop leaves it with ErrorReadingVersion,
through the reset sequence if it was requested. A byte is counted and shifted into the window; a
window that is no match leaves the loop with MalformedVersion (or through the reset sequence)
exactly if more than 2048 bytes have been counted. (41_handshake.md, section 2) -/
def Obligations.SyncLoopKicksAndGivesUp : Prop :=
  ∀ s : State,
    (s.phase = .hs .top → s.tp.isOpen = true → s.Quiet → s.tp.rx = [] → s.hs.nSeen = 0 →
        s.hs.nEmpty = 0 → s.now + 6 * deadline s.tp.rdTimeout 1 < s.hs.t0 + 8000 →
        steps 21 s = .next { s with
          hs := { s.hs with nEmpty := 7 }, phase := .mark [0x3F], cur := Move.quiet
          now := s.now + 7 * deadline s.tp.rdTimeout 1 })
      ∧ (s.phase = .hs .top → s.hs.t0 + 8000 ≤ s.tick.now →
        step s = .next { s.tick with
          phase := if s.hs.triggerReset then .hs .dtrLow else .hs (.close .errorReadingVersion) })
      ∧ (∀ b rest, s.phase = .hs (.byte (b :: rest)) →
        step s = .next { s.tick with
          hs := { s.hs with nSeen := s.hs.nSeen + 1 }, phase := .hs (.shift b) })
      ∧ (∀ b, s.phase = .hs (.shift b) →
        step s = .next { s.tick with
          hs := { s.hs with vwin := s.hs.vwin.push b }, phase := .hs .look })
      ∧ (s.phase = .hs .look → decodeVersion s.hs.vwin.bytes = .reject .notVersion →
        step s = .next { s.tick with
          phase := if s.hs.nSeen ≤ 2048 then .hs .top
            else if s.hs.triggerReset then .hs .dtrLow else .hs (.close .malformedVersion) })

/-- In every environment, with a Transport Session: each of the two purges empties both FIFOs, and the
pause between them moves the clock by at least a millisecond more than the environment does. In a
quiet environment (log entry 6), with a version below 1.9 recorded: the purges and the pause follow
one another, the capability bytes are 0, and firmware of at least MIN_FIRMWARE leads to Ready with
the normal timeouts and OK, older firmware to Closed without a Transport Session and OldFirmware.
The check and its two outcomes hold for every recorded version. Everything else is as before, or as
after the environment's part of the step. (41_handshake.md, section 2) -/
def Obligations.HandshakeEndsReadyOrClosed : Prop :=
  (∀ s : State, s.tp.isOpen = true →
      (s.phase = .hs .purge1 →
          step s = .next { s.tick with
            tp := { s.tick.tp with rx := [], tx := [] }, phase := .hs .settle })
        ∧ (s.phase = .hs .settle →
          ∃ now, s.tick.now + 1 ≤ now
            ∧ step s = .next { s.tick with now := now, phase := .hs .purge2 })
        ∧ (s.phase = .hs .purge2 →
          step s = .next { s.tick with
            tp := { s.tick.tp with rx := [], tx := [] }, phase := .hs .query }))
    ∧ (∀ s : State, s.phase = .hs .purge1 → s.tp.isOpen = true → s.Quiet → featuresDue s.fw = false →
      (firmwareAccepted s.fw s.par = true →
          ∃ now, s.now + 1 ≤ now ∧ steps 11 s = .next { s with
            st := .ready, lastError := .ok, phase := .ret .ok, cur := Move.quiet, now := now
            fw := { s.fw with deviceFlags1 := 0, deviceFlags2 := 0, buildNumber := 0 }
            tp := { s.tp with
              rx := [], tx := [], rdTimeout := s.par.normalRd, wrTimeout := s.par.normalWr } })
        ∧ (firmwareAccepted s.fw s.par = false →
          ∃ now, s.now + 1 ≤ now ∧ steps 10 s = .next { s with
            st := .closed, lastError := .oldFirmware, phase := .ret .oldFirmware, cur := Move.quiet
            now := now
            fw := { s.fw with deviceFlags1 := 0, deviceFlags2 := 0, buildNumber := 0 }
            tp := Transport.absent s.tp.saved }))
    ∧ (∀ s : State, s.phase = .hs .check → s.tp.isOpen = true → s.Quiet →
      ((s.par.minMajor < s.fw.major.toNat
            ∨ (s.fw.major.toNat = s.par.minMajor ∧ s.par.minMinor ≤ s.fw.minor.toNat)) →
          steps 5 s = .next { s with
            st := .ready, lastError := .ok, phase := .ret .ok, cur := Move.quiet
            tp := { s.tp with rdTimeout := s.par.normalRd, wrTimeout := s.par.normalWr } })
        ∧ ((s.fw.major.toNat < s.par.minMajor
            ∨ (s.fw.major.toNat = s.par.minMajor ∧ s.fw.minor.toNat < s.par.minMinor)) →
          steps 4 s = .next { s with
            st := .closed, lastError := .oldFirmware, phase := .ret .oldFirmware, cur := Move.quiet
            tp := Transport.absent s.tp.saved }))

/-- At the point of the feature query: a version of at least 1.9 has the pause before the features
command ahead of it, an older one sets the three capability fields to 0, one a step. When the
command has returned, OK leads to the read of three bytes and another code closes the port with it.
In a quiet environment (log entry 6), three bytes there are recorded and the firmware check follows;
fewer close the port with ErrorReadingVersion exactly at the read deadline (log entry 7, the model's
choice). Everything else is as before. (41_handshake.md, section 2, 42_commands.md, section 1) -/
def Obligations.FeatureQueryReadsThreeBytes : Prop :=
  ∀ s : State,
    (s.phase = .hs .query →
        step s =
          if 1 < s.fw.major.toNat ∨ (s.fw.major.toNat = 1 ∧ 9 ≤ s.fw.minor.toNat) then
            .next { s.tick with phase := .pause [0x40] }
          else .next { s.tick with
            fw := { s.fw with deviceFlags1 := 0 }, phase := .hs (.flags2 0 0) })
      ∧ (∀ f2 build, s.phase = .hs (.flags2 f2 build) →
        step s = .next { s.tick with
          fw := { s.fw with deviceFlags2 := f2 }, phase := .hs (.build build) })
      ∧ (∀ build, s.phase = .hs (.build build) →
        step s = .next { s.tick with fw := { s.fw with buildNumber := build }, phase := .hs .check })
      ∧ (∀ c rest, s.phase = .ret c → s.frames = .features :: rest →
        step s = .next { s.tick with
          frames := rest, phase := if c = .ok then .hs .featBytes else .hs (.close c) })
      ∧ (s.phase = .hs .featBytes → s.tp.isOpen = true → s.Quiet →
        (∀ f1 f2 build post, s.tp.rx = f1 :: f2 :: build :: post →
            steps 4 s = .next { s with
              fw := { s.fw with deviceFlags1 := f1, deviceFlags2 := f2, buildNumber := build }
              tp := { s.tp with rx := post }, phase := .hs .check, cur := Move.quiet })
          ∧ (s.tp.rx.length < 3 →
            steps 5 s = .next { s with
              st := .closed, lastError := .errorReadingVersion, phase := .ret .errorReadingVersion
              tp := Transport.absent s.tp.saved, cur := Move.quiet
              now := s.now + deadline s.tp.rdTimeout 3 }))

/-- In a quiet environment (log entry 6), for either failure of the sync loop: with the reset requested
DTR and RTS go low, after at least 10 ms high, and at least 10 ms later the port is closed and
ErrorReadingVersion returned; without it the port is closed at once and the failure's own code
returned. The engine is in Closed in both cases and everything else is as before. (R160) -/
def Obligations.FailedSyncTogglesTheLinesAndCloses : Prop :=
  ∀ (s : State) (e : Code), s.tp.isOpen = true → s.Quiet →
    (s.hs.triggerReset = true →
        steps 2 (s.hsFail e) = .next { s with
          tp := { s.tp with dtr := false, rts := false }, cur := Move.quiet, phase := .hs .settleLow }
        ∧ ∃ low high, s.now + 10 ≤ low ∧ low + 10 ≤ high ∧ steps 5 (s.hsFail e) = .next { s with
          tp := { s.tp with dtr := true, rts := true }, cur := Move.quiet, now := low
          phase := .hs .settleHigh }
        ∧ steps 9 (s.hsFail e) = .next { s with
          tp := Transport.absent s.tp.saved, st := .closed, cur := Move.quiet, now := high
          lastError := .errorReadingVersion, phase := .ret .errorReadingVersion })
      ∧ (s.hs.triggerReset = false →
        steps 3 (s.hsFail e) = .next { s with
          tp := Transport.absent s.tp.saved, st := .closed, cur := Move.quiet
          lastError := e, phase := .ret e })

/-- From Ready, ReadEnabled and WriteEnabled, for every acceptance and every bytes sent, closePort ends
in Closed with no Transport Session and the saved line restored; lastError and lastCommand are as
the disable exchange set them. In Closed it does nothing; in Syncing and Streaming it is refused.
Everything else is as before. (R162) -/
def Obligations.ClosePortAlwaysEndsClosed : Prop :=
  ∀ (s : State) (accepted : Bool) (rsp : List Byte),
    (s.st.commands = true → ∃ now, s.now + 1 ≤ now ∧
        steps 11 (s.asked .closePort (Move.exchange accepted rsp))
          = .next { (s.asked .closePort []).finished 0x2D [] [] (commandCode accepted rsp) now with
              st := .closed, tp := Transport.absent s.tp.saved })
      ∧ (s.st = .closed → s.phase = .idle → ∀ rest, s.ops = .closePort :: rest →
        step s = .next { s.tick with ops := rest })
      ∧ (s.st = .syncing ∨ s.st = .streaming → s.phase = .idle → ∀ rest, s.ops = .closePort :: rest →
        step s = .refused .wrongState)

/-- For every bit string: there are as many transitions as 1 bits, and the transition of the 1 bit at i
carries the distance to the 1 bit before it, none for the first, and the hint early exactly if the
bits two before and one before are 1 0 and the two after 0 0, late exactly if they are 0 0 and 0 1,
none otherwise, bits outside the string being 0. That the first has no run, and that every track has
the hint, are the model's choices (log entries 14 and 34). (44_track_write.md, section 2) -/
def Obligations.TransitionsCarryRunAndHint : Prop :=
  ∀ bits : List Bool,
    (transitions false false none bits).length = bits.count true
      ∧ ∀ i, bits[i]? = some true →
        ∃ run hint, (transitions false false none bits)[(bits.take i).count true]? = some (run, hint)
          ∧ (∀ m : Int → Bool, (∀ j : Nat, m j = bits.getD j false) → (∀ j : Int, j < 0 → m j = false) →
            hint =
              if m (i - 2) = true ∧ m (i - 1) = false ∧ m (i + 1) = false ∧ m (i + 2) = false then .early
              else if m (i - 2) = false ∧ m (i - 1) = false ∧ m (i + 1) = false ∧ m (i + 2) = true then
                .late
              else .none)
          ∧ (run = none ↔ ∀ j, j < i → bits[j]? = some false)
          ∧ (∀ n, run = some n →
            0 < n ∧ n ≤ i ∧ bits[i - n]? = some true ∧ ∀ j, i - n < j → j < i → bits[j]? = some false)

/-- When the write command has returned, OK leads to the payload and another code is returned. At the
payload of a track write with a Transport Session: the step writes the payload followed by one 0
byte if isHDMode, else the length prefix and the payload, as far as the channel accepts it, and
awaits the status byte whatever the count; everything else is as after the environment's part of the
step. No byte of a precompensated payload is 0, and it has one byte for each 1 bit. A read of the
status byte that returned none returns ReadResponseFailed. That the payload's count is not examined
and the form of the transition byte are the model's choices (log entry 14), as is the plain write's
payload and exchange (log entry 13). (44_track_write.md, sections 1 and 2, 30_encoding.md, section
7) -/
def Obligations.PayloadIsFramedByDensity : Prop :=
  (∀ (s : State) (precomp : Bool), s.phase = .payload precomp → s.tp.isOpen = true →
      ∀ bs, bs = (if s.isHDMode then s.wr.payload precomp ++ [0]
        else Config.lengthPrefix (s.wr.payload precomp) ++ s.wr.payload precomp) →
      ∃ now, step s = .next { s.tick with
        tp := { s.tick.tp with tx := s.tick.tp.tx ++ bs.take (s.tick.accepted bs.length) }
        now := now, phase := .await .rspW })
    ∧ (∀ (s : State) (c : Code) (precomp : Bool) (rest : List Frame), s.phase = .ret c →
      s.frames = .payload precomp :: rest →
      step s = .next (if c = .ok then { s.tick with frames := rest, phase := .payload precomp }
        else { s.tick with frames := rest, lastError := c, phase := .ret c }))
    ∧ (∀ s : State, s.phase = .judge .rspW [] →
      step s = .next { s.tick with
        lastError := .readResponseFailed, phase := .ret .readResponseFailed })
    ∧ ∀ w : WriteBuf, (∀ b ∈ w.payload true, b ≠ 0) ∧ (w.payload true).length = w.bits.count true

/-- From the start of a decode call on any capture with any operands, in any environment, with no
adapter operation waiting: after bitLength + 63 steps and one more (one step for an empty capture)
the machine is idle and the decoder's registers and outputs are those of the pure function
decodeTrack of the parameters, the capture and the operands; the capture, the engine state, the
cached flags and lastError are as before. (45_mfm_decoder.md, sections 1, 5 and 7) -/
def Obligations.ScanComputesDecode : Prop :=
  ∀ (s : State) (isHD : Bool) (cylinder head expected : Nat), s.phase = .scan → s.frames = [] →
    s.dec = Decoder.initial isHD cylinder head expected →
    ∃ t, steps (scanLength s.cap + 1) s = .next t
      ∧ t.dec = decodeTrack s.par s.cap isHD cylinder head expected
      ∧ t.phase = .idle ∧ t.cap = s.cap ∧ t.st = s.st ∧ t.lastError = s.lastError
      ∧ t.isHDMode = s.isHDMode ∧ t.diskPresent = s.diskPresent ∧ t.writeProtected = s.writeProtected

/-- Crc16 of no bytes is FFFF; its values on 00, FF, 123456789, A1, A1 A1 A1, A1 A1 A1 FE, A1 A1 A1 FB
and A1 A1 A1 FE 03 01 05 02 are those the rule lists; and for every message and every two bytes, the
CRC of the message followed by them is 0 exactly if they are the message's CRC, high byte first.
(R244) -/
def Obligations.CrcOfAValidRecordIsZero : Prop :=
  crc16 [] = 0xFFFF ∧ crc16 [0x00] = 0xE1F0 ∧ crc16 [0xFF] = 0xFF00
    ∧ crc16 [0x31, 0x32, 0x33, 0x34, 0x35, 0x36, 0x37, 0x38, 0x39] = 0x29B1
    ∧ crc16 [0xA1] = 0x443B ∧ crc16 [0xA1, 0xA1, 0xA1] = 0xCDB4
    ∧ crc16 [0xA1, 0xA1, 0xA1, 0xFE] = 0xB230 ∧ crc16 [0xA1, 0xA1, 0xA1, 0xFB] = 0xE295
    ∧ crc16 [0xA1, 0xA1, 0xA1, 0xFE, 0x03, 0x01, 0x05, 0x02] = 0xAA47
    ∧ ∀ (bs : List Byte) (hi lo : Byte), crc16 (bs ++ [hi, lo]) = 0 ↔ storedCrc hi lo = crc16 bs

/-- For every buffer in canonical form, every cursor and every bit list that fits from there: writing
the list and then reading as many bits from the same cursor gives the list, and every bit outside
the region reads as before. (R239) -/
def Obligations.BitsWrittenAreBitsRead : Prop :=
  ∀ (size : Nat) (buf : Memory) (c : Cursor) (xs : List Bool), buf.wf = true → c.bit < 8 →
    8 * c.pos + c.bit + xs.length ≤ 8 * size →
    (readBits size xs.length (writeBits size xs buf c).1 c).map Prod.fst = some xs
      ∧ ∀ i, i < 8 * c.pos + c.bit ∨ 8 * c.pos + c.bit + xs.length ≤ i →
        bitOf ((writeBits size xs buf c).1.get (i / 8)) (i % 8) = bitOf (buf.get (i / 8)) (i % 8)

/-- For every capture, start and count: as many bytes come out as asked for, and bit k of byte j, the
most significant first, is the capture bit at s + 16 j + 2 k + 1 taken modulo bitLength, that is the
bit under mask 80 shifted right by that index mod 8 of the byte at the index div 8. The call of it,
with a bit length above 0 and within the buffer, hands these bytes to its caller and leaves the rest
as after the environment's part of the step. (R243) -/
def Obligations.ExtractTakesTheOddBits : Prop :=
  (∀ (cap : Capture) (s n : Nat), (cap.extract s n).length = n
    ∧ ∀ j k, j < n → k < 8 → ∃ b, (cap.extract s n)[j]? = some b
      ∧ b.getMsbD k
        = (cap.buf.get ((s + 16 * j + 2 * k + 1) % cap.bitLength / 8)).getMsbD
            ((s + 16 * j + 2 * k + 1) % cap.bitLength % 8))
    ∧ ∀ (s : State) (a n : Nat) (rest : List Op), s.phase = .idle → s.ops = .extract a n :: rest →
      0 < s.cap.bitLength → s.cap.bitLength ≤ 8 * s.cap.size →
      step s = .next { s.tick with ops := rest, out := .bytes (s.cap.extract a n), phase := .idle }

/-- For every track, sector number from 1 on, payload and error count: above 22 the track is unchanged;
else the entry under the number less 1 is the new one if there was none or the new one has strictly
fewer errors, and the old one otherwise, and every other key reads as before. (R255) -/
def Obligations.InsertKeepsTheBetterCopy : Prop :=
  ∀ (trk : Track) (r k : Nat) (bytes : List Byte) (err : Half), 1 ≤ r →
    (22 < r → trk.insertSector r bytes err = trk)
      ∧ (r ≤ 22 →
        (trk.insertSector r bytes err).get k =
          if k = r - 1 then
            match trk.get (r - 1) with
            | none => some { bytes := bytes, errorCount := err }
            | some old =>
              if err.toNat < old.errorCount.toNat then some { bytes := bytes, errorCount := err }
              else some old
          else trk.get k)

/-- After the scan nonstandardTimings is true exactly if a gap was counted and the total of the gaps,
divided by their number, is below 70. For every decoder state whose track has its keys strictly
rising: after the scan every key that had an entry keeps it, every other key below the expected
count holds 512 zero bytes with error count FFFF, no other key has an entry, the keys stay strictly
rising, and sectorsWithErrors is the number of entries whose error count is not 0. (R257, R258,
R259) -/
def Obligations.FinishFillsAndCounts : Prop :=
  (∀ d : Decoder, d.finish.nonstandardTimings = true ↔ 0 < d.numGaps ∧ d.gapTotal / d.numGaps < 70)
    ∧ ∀ d : Decoder, d.trk.wf = true →
    (∀ k, d.finish.trk.get k =
        match d.trk.get k with
        | some e => some e
        | none =>
          if k < d.expected then some { bytes := List.replicate 512 0, errorCount := 0xFFFF } else none)
      ∧ d.finish.trk.wf = true
      ∧ d.finish.sectorsWithErrors = (d.finish.trk.filter fun e => e.2.errorCount != 0).length

/-- With parameters that satisfy their constraints, for every state and every environment: if a scan
under way has its decoder bounded and the step answers a next state in which a scan is under way,
its decoder is bounded. Bounded says: the keys are strictly rising; each entry of the track has a
key of at most 21, a payload of 128 shifted by 0 to 7 bytes, and an error count of at most SYNTH_ERR
+ 1, so never the sentinel of a filler; a latched header has a sector number of at least 1 and at
most SYNTH_ERR errors. The decoder at the start of a call is bounded, and so is every number of
iterations from it on any capture. (10_state.md, section 5, 20_memory.md, sections 1 and 4,
45_mfm_decoder.md, section 6) -/
def Obligations.ObservedSectorsStayInBounds : Prop :=
  (∀ s t : State, s.par.ok = true → (s.phase = .scan → Decoder.Bounded s.par s.dec) → step s = .next t →
      t.phase = .scan → Decoder.Bounded t.par t.dec)
    ∧ ∀ (p : Params) (cap : Capture) (isHD : Bool) (cylinder head expected n : Nat), p.ok = true →
      Decoder.Bounded p (Decoder.initial isHD cylinder head expected)
        ∧ Decoder.Bounded p ((Decoder.initial isHD cylinder head expected).scan p cap n)

/-- For a track of at most 83 the calibration track is at most 83 and exactly 30 away. In a state that
allows commands, a seek that comes to a head whose track is not in the cache, and readByte with a
device attached and no track of its head in the cache, begin the first attempt: the pause before the
track command of that track; a seek goes on at a head whose track is there, and ends after the last
head. Inside a capture, in a state that allows commands: a select, a surface or a read that has
returned another code than OK leads, before the third attempt, to the pause before the track command
of the calibration track, and after the third to the filler track of the geometry in force; the
calibration seek leads to the seek back and that to the next attempt's select, whatever their codes.
An accepted select leads to the surface, that (in ReadEnabled) to a read of a new capture, that to a
decode of the capture with the track, the head and the sector count in force, and the end of the
scan to its track. The track, decoded or filler, is stored in the cache under track and head, and
the seek goes on with the next head, or readByte hands out its byte. Everything else is as after the
environment's part of the step. (46_device_adapter.md, sections 2 and 3) -/
def Obligations.FailedTrackReadsCalibrateAndRetry : Prop :=
  (∀ n, n ≤ 83 → calTrack n ≤ 83 ∧ (calTrack n = n + 30 ∨ n = calTrack n + 30))
    ∧ (∀ (s : State) (track head : Nat), s.phase = .seek track head →
      (head < 2 → track ≤ 83 → s.st.commands = true → cacheGet s.ad.cache track head = none →
          step s = .next { s.tick with
            frames := .capture .select track head 1 :: .seekHead track head :: s.frames
            phase := .pause (encodeTrack track) })
        ∧ (∀ trk, head < 2 → cacheGet s.ad.cache track head = some trk →
          step s = .next { s.tick with phase := .seek track (head + 1) })
        ∧ (2 ≤ head → step s = .next { s.tick with phase := .idle }))
    ∧ (∀ (s : State) (head offset : Nat) (rest : List Op), s.phase = .idle →
      s.ops = .readByte head offset :: rest → s.ad.attached = true → s.ad.curTrack ≤ 83 →
      s.st.commands = true → cacheGet s.ad.cache s.ad.curTrack head = none →
      step s = .next { s.tick with
        ops := rest, phase := .pause (encodeTrack s.ad.curTrack)
        frames := .capture .select s.ad.curTrack head 1 :: .serve head offset :: s.frames })
    ∧ (∀ (s : State) (c : Code) (k : CapStep) (track head attempt : Nat) (rest : List Frame),
      s.phase = .ret c → track ≤ 83 → s.st.commands = true →
      s.frames = .capture k track head attempt :: rest →
      ((k = .select ∨ k = .surface ∨ k = .read) → c ≠ .ok →
          (1 ≤ attempt → attempt < 3 →
            step s = .next { s.tick with
              frames := .capture .calOut track head (attempt + 1) :: rest
              phase := .pause (encodeTrack (calTrack track)) })
          ∧ (attempt = 3 →
            ∀ filler, filler = Track.fill (if s.isHDMode then 18 else 9) 0 [] →
            ∀ ad, ad = { s.ad with
              cache := cacheSet s.ad.cache { track := track, head := head, trk := filler } } →
              (∀ t h rest', rest = .seekHead t h :: rest' →
                step s = .next { s.tick with frames := rest', phase := .seek t (h + 1), ad := ad })
              ∧ (∀ h offset rest', rest = .serve h offset :: rest' →
                step s = .next { s.tick with
                  frames := rest', phase := .idle, ad := ad
                  out := .byte (s.ad.sel.serve s.par.serveErrLimit filler offset) })))
        ∧ (k = .calOut →
          step s = .next { s.tick with
            frames := .capture .calBack track head attempt :: rest, phase := .pause (encodeTrack track) })
        ∧ (k = .calBack →
          step s = .next { s.tick with
            frames := .capture .select track head attempt :: rest, phase := .pause (encodeTrack track) })
        ∧ (k = .select → c = .ok → head ≤ 1 →
          step s = .next { s.tick with
            frames := .capture .surface track head attempt :: rest
            phase := .pause [if head = 0 then 0x5B else 0x5D] })
        ∧ (k = .surface → c = .ok → s.st = .readEnabled →
          step s = .next { s.tick with
            frames := .capture .read track head attempt :: rest
            phase := .pause [if s.isHDMode then 0x7B else 0x3C]
            cap := { buf := [], size := s.par.capBytes s.isHDMode, bitLength := 0 }
            str := { s.str with startTries := 0 }, blk := { got := [], empty := 0 } })
        ∧ (k = .read → c = .ok → s.cap.bitLength ≤ 8 * s.cap.size →
          step s = .next { s.tick with
            frames := .captureDecode track head :: rest, phase := .scan
            dec := Decoder.initial s.isHDMode track head (if s.isHDMode then 18 else 9) }))
    ∧ (∀ (s : State) (track head : Nat) (rest : List Frame), s.phase = .scan →
      scanOver s.dec s.cap = true → s.frames = .captureDecode track head :: rest →
      ∀ ad, ad = { s.ad with
        cache := cacheSet s.ad.cache { track := track, head := head, trk := s.dec.finish.trk } } →
        (∀ t h rest', rest = .seekHead t h :: rest' →
          step s = .next { s.tick with
            dec := s.dec.finish, frames := rest', phase := .seek t (h + 1), ad := ad })
        ∧ (∀ h offset rest', rest = .serve h offset :: rest' →
          step s = .next { s.tick with
            dec := s.dec.finish, frames := rest', phase := .idle, ad := ad
            out := .byte (s.ad.sel.serve s.par.serveErrLimit s.dec.finish.trk offset) }))

/-- With a device attached and the current track of the head in the cache: readByte hands out the byte
at the offset of the selected sector, unless the sector number is 0, the key is absent, its entry is
a filler or has more errors than the limit, or the offset is past its end; then it is the selected
cylinder, head, sector and size at offsets 0 to 3 and AA at every other. The track is that of the
call's own head (the model's choice where the selection's head differs, log entry 36; the low 8 bits
of a selected value above 255 are stamped, log entry 37). Everything else is as after the
environment's part of the step. (46_device_adapter.md, section 3, 30_encoding.md, section 9) -/
def Obligations.ServedByteIsDataOrThePattern : Prop :=
  ∀ (s : State) (head offset : Nat) (rest : List Op) (trk : Track), s.phase = .idle →
    s.ops = .readByte head offset :: rest → s.ad.attached = true →
    cacheGet s.ad.cache s.ad.curTrack head = some trk →
    ∀ fill : Byte, fill = (if offset = 0 then BitVec.ofNat 8 s.ad.sel.cyl
        else if offset = 1 then BitVec.ofNat 8 s.ad.sel.head
        else if offset = 2 then BitVec.ofNat 8 s.ad.sel.sector
        else if offset = 3 then BitVec.ofNat 8 s.ad.sel.size else 0xAA) →
    step s = .next { s.tick with
      ops := rest
      out := .byte (
        if s.ad.sel.sector = 0 then fill
        else match trk.get (s.ad.sel.sector - 1) with
          | none => fill
          | some e =>
            if e.errorCount = 0xFFFF ∨ s.par.serveErrLimit.toNat < e.errorCount.toNat
                ∨ e.bytes.length ≤ offset then fill
            else e.bytes.getD offset 0) }

/-- attach on an empty slot in Closed creates the session, with the values reset states and the others
drawn from the environment (log entry 20), and begins openPort; OK of openPort makes the device
attached and leads to the density check, whose end ends attach (that attach neither rewinds nor
enables the motor is the model's choice, log entry 24), and another code leaves the slot empty. With
a device attached: detach empties the cache, leaves the slot empty and closes the port; the first
step of a seek to another track empties the cache and records the track, and a seek to the current
one leaves both; setSector latches the selection; writeByte and writeback do nothing,
formatSupported is false, writeprot true, diskFlags and sideFlags say double-sided, MFM and the data
rate by isHDMode (as meanings, log entry 25). Without a device each of these but attach, and
readByte, is refused. In a quiet environment (log entry 6), a seek to the current track with both
heads in the cache ends after four steps with nothing written and nothing read. Everything else is
as after the environment's part of the step. (46_device_adapter.md, sections 1 to 3,
70_reset_and_hazards.md, section 1, 10_state.md, section 8) -/
def Obligations.AdapterAttachesSeeksAndAnswers : Prop :=
  (∀ (s : State) (path : String) (flow reset : Bool) (rest : List Op), s.phase = .idle →
      s.ops = .attach path flow reset :: rest → s.ad.attached = false → s.st = .closed →
      ∀ d, d = s.tick.cur.draw →
      step s = .next { s.tick with
        ops := rest, lastError := .ok, lastCommand := 0x00, abortRequested := false, fw := d.fw
        diskPresent := d.diskPresent, writeProtected := d.writeProtected, isHDMode := d.isHDMode
        tp := Transport.absent s.tick.tp.line
        ad := { attached := false, curTrack := d.curTrack, cache := [], sel := d.sel }
        hs := { s.hs with path := path, ctsFlow := flow, triggerReset := reset }
        frames := .attachOpen :: s.frames, phase := .hs .open })
    ∧ (∀ (s : State) (c : Code) (rest : List Frame), s.phase = .ret c →
      (s.frames = .attachOpen :: rest →
          step s = .next (if c = .ok then
            { s.tick with
              ad := { s.ad with attached := true }, frames := .attachDensity :: rest
              phase := .pause [0x54] }
            else { s.tick with frames := rest, phase := .idle }))
        ∧ (s.frames = .attachDensity :: rest → step s = .next { s.tick with frames := rest, phase := .idle }))
    ∧ (∀ (s : State) (rest : List Op), s.phase = .idle → s.ad.attached = true →
      (s.ops = .detach :: rest →
          (s.st = .closed → step s = .next { s.tick with
            ops := rest, ad := { s.ad with attached := false, cache := [] } })
          ∧ (s.st.commands = true → step s = .next { s.tick with
            ops := rest, ad := { s.ad with attached := false, cache := [] }
            frames := .closing :: s.frames, phase := .pause [0x2D] }))
        ∧ (∀ track, s.ops = .seek track :: rest → step s = .next { s.tick with
          ops := rest, phase := .seek track 0
          ad := if track = s.ad.curTrack then s.ad else { s.ad with cache := [], curTrack := track } })
        ∧ (∀ side cylinder head sector size, s.ops = .setSector side cylinder head sector size :: rest →
          step s = .next { s.tick with
            ops := rest
            ad := { s.ad with sel := { head := side, cyl := cylinder, sector := sector, size := size } } })
        ∧ (s.ops = .writeByte :: rest ∨ s.ops = .writeback :: rest → step s = .next { s.tick with ops := rest })
        ∧ (s.ops = .formatSupported :: rest →
          step s = .next { s.tick with ops := rest, out := .bool false })
        ∧ (s.ops = .writeprot :: rest → step s = .next { s.tick with ops := rest, out := .bool true })
        ∧ (s.ops = .diskFlags :: rest ∨ s.ops = .sideFlags :: rest →
          step s = .next { s.tick with ops := rest, out := .flags true true s.isHDMode }))
    ∧ (∀ (s : State) (o : Op) (rest : List Op), s.phase = .idle → s.ad.attached = false →
      s.ops = o :: rest →
      (o = .detach ∨ (∃ track, o = .seek track) ∨ (∃ a b c d e, o = .setSector a b c d e)
        ∨ (∃ head offset, o = .readByte head offset) ∨ o = .writeByte ∨ o = .writeback
        ∨ o = .formatSupported ∨ o = .writeprot ∨ o = .diskFlags ∨ o = .sideFlags) →
      step s = .refused .notAttached)
    ∧ (∀ (s : State) (a b : Track) (rest : List Op), s.phase = .idle →
      s.ops = .seek s.ad.curTrack :: rest → s.ad.attached = true → s.Quiet →
      cacheGet s.ad.cache s.ad.curTrack 0 = some a → cacheGet s.ad.cache s.ad.curTrack 1 = some b →
      steps 4 s = .next { s with ops := rest, cur := Move.quiet })

/-- For every state and every environment: if the step answers a next state, its parameters (the sync
constants, SYNTH_ERR, the capacities, the open command bytes, the timeouts, the symbol bits and the
others) are those before. (00_scope.md, rules on parameters) -/
def Obligations.StepsKeepTheParameters : Prop :=
  ∀ s t : State, step s = .next t → t.par = s.par

/-- For every state in which the capture's bytes are listed by strictly rising index without an entry
equal to an unlisted one, and the Decoded Track, the cache and every track in it by strictly rising
key: if the step answers a next state, the same holds there. (20_memory.md, sections 1 and 4,
10_state.md, section 8) -/
def Obligations.StepsKeepTheCanonicalForms : Prop :=
  ∀ s t : State, s.Canonical → step s = .next t → t.Canonical

/-- For every state in which the engine state is Closed or there is a Transport Session (but for the
moment after its release; before Closed is left there is one), the handshake's steps stand in Closed
up to the timeouts and in Syncing after, the streamed read stands in ReadEnabled up to its entry and
in Streaming after, and a waiting stream start or feature query is the innermost waiting operation
in its own exchange and engine state: if the step answers a next state, the same holds there.
(10_state.md, section 3, 41_handshake.md, section 1) -/
def Obligations.StepsKeepTheSessionConsistent : Prop :=
  ∀ s t : State, s.SessionInv → step s = .next t → t.SessionInv

/-- For every state in which the session is consistent (the invariant that every step keeps): if the
step answers a next state, the engine state is as before or has made one of the moves of the table:
Closed to Syncing, Syncing to Ready, Ready to ReadEnabled or WriteEnabled, those back to Ready,
ReadEnabled to Streaming and back, or any to Closed. (41_handshake.md, section 1) -/
def Obligations.EngineStateMovesOnlyByItsTable : Prop :=
  ∀ s t : State, s.SessionInv → step s = .next t → s.st.mayMove t.st = true

/-- For every state in which bitLength, as it is or is about to be set, is at most 8 times the capture's
capacity; Streaming means the engine is in the streamed read or about to record and write the abort
byte; in either, from its initial value on, the write cursor is within the capacity, with room where
a bit has just been written, and the count of empty polls below 30; the chunk, and what a poll
returned, is at most 64 bytes; and an operation waiting for the check after a stall is the innermost
one, in that check, with the cursor within the capacity: if the step answers a next state, the same
holds there. (43_streaming_read.md, section 2, 20_memory.md, section 1) -/
def Obligations.StepsKeepTheStreamInBounds : Prop :=
  ∀ s t : State, s.StreamInv → step s = .next t → t.StreamInv

/-- For every state: if the step answers a next state, isHDMode is as before unless the engine judged
the density byte, and diskPresent is as before unless it judged the write-protect byte of check
disk, and writeProtected as before unless it judged that of check write protection or had just
written diskPresent; the one other step that may change them is the start of an attach, which
creates the session anew. (10_state.md, section 2, 42_commands.md, section 4) -/
def Obligations.CachedFlagsAreWrittenByTheirChecksOnly : Prop :=
  ∀ s t : State, step s = .next t →
    (s.phase = .idle ∧ ∃ path flow reset rest, s.ops = .attach path flow reset :: rest)
      ∨ (((∀ bs, s.phase ≠ .judge .density bs) → t.isHDMode = s.isHDMode)
        ∧ ((∀ f bs, s.phase ≠ .judge (.diskProtect f) bs) → t.diskPresent = s.diskPresent)
        ∧ ((∀ bs, s.phase ≠ .judge .wpByte bs) → (∀ p c, s.phase ≠ .protect p c) →
          t.writeProtected = s.writeProtected))

/-- At reset the engine state is Closed and its mode Idle, lastError OK, lastCommand 0, abortRequested
false, there is no Transport Session, the handshake, streaming and decoder registers hold the values
their operations create them with (that they hold them at reset, where they do not exist yet, is the
model's choice, log entry 4), and the adapter's cache is empty; the values the spec leaves
unspecified are not stated here. The capture, the Decoded Track and the cache are in canonical form,
the session is consistent and the stream is in its bounds. (70_reset_and_hazards.md, section 1) -/
def Obligations.ResetLeavesTheStatedValues : Prop :=
  State.reset.st = .closed ∧ State.reset.st.mode = .idle ∧ State.reset.lastError = .ok
    ∧ State.reset.lastCommand = 0 ∧ State.reset.abortRequested = false
    ∧ State.reset.tp.isOpen = false
    ∧ State.reset.hs.vwin.bytes = [0, 0, 0, 0, 0] ∧ State.reset.hs.nSeen = 0
    ∧ State.reset.hs.nEmpty = 0
    ∧ State.reset.str.awin.bytes = [0, 0, 0, 0, 0] ∧ State.reset.str.nStall = 0
    ∧ State.reset.str.abortSent = false ∧ State.reset.str.userAbort = false
    ∧ State.reset.str.wcur = { pos := 0, bit := 0 }
    ∧ State.reset.dec.sr = 0 ∧ State.reset.dec.t = 0 ∧ State.reset.dec.trk = []
    ∧ State.reset.dec.headerFound = false ∧ State.reset.dec.lastSector = 0
    ∧ State.reset.dec.prevEnd = none ∧ State.reset.dec.gapTotal = 0 ∧ State.reset.dec.numGaps = 0
    ∧ State.reset.ad.cache = []
    ∧ State.reset.Canonical ∧ State.reset.SessionInv ∧ State.reset.StreamInv
end

