-- ==== Sys2Proof/Laws/Decoder.lean ====
section
/-! SUPPORT. What the decoder's operations can do, said once (45_mfm_decoder.md). -/

namespace Sys2Proof.Machine

/-! ### Records -/

@[simp] theorem Capture.extract_length (cap : Capture) (s n : Nat) : (cap.extract s n).length = n := by
  simp [Capture.extract, oddBytes]

/-- A byte of an extracted record. -/
theorem Capture.extract_getElem? (cap : Capture) {s n j : Nat} (h : j < n) :
    (cap.extract s n)[j]? = some (oddByte cap.capBit (s + 16 * j)) := by
  simp [Capture.extract, oddBytes, h]

/-- A capture whose bit length is positive and within its buffer has every bit of the circle. -/
theorem Capture.askedBit_of_holds (cap : Capture) (h0 : 0 < cap.bitLength)
    (h1 : cap.bitLength ≤ 8 * cap.size) : cap.askedBit = cap.capBit := by
  funext i
  have hi : i % cap.bitLength < 8 * cap.size := (Nat.mod_lt i h0).trans_le h1
  simp [Capture.askedBit, Capture.holds, hi, Nat.pos_iff_ne_zero.mp h0]

/-- Everything the call `Extract` can do: it hands `n` bytes to its caller, `Extract`'s own where the
capture has all its bits. -/
theorem State.startExtract_spec (s : State) (a n : Nat) :
    ∃ bs, bs.length = n
      ∧ (0 < s.cap.bitLength → s.cap.bitLength ≤ 8 * s.cap.size → bs = s.cap.extract a n)
      ∧ s.startExtract a n = .next ((s.setOut (.bytes bs)).goto .idle) :=
  ⟨oddBytes s.cap.askedBit a n, by simp [oddBytes],
    fun h0 h1 => by rw [Capture.askedBit_of_holds _ h0 h1]; rfl, rfl⟩

/-! ### Error counts (45_mfm_decoder.md R249) -/

theorem errorIf_toNat_le (x : Bool) : (errorIf x).toNat ≤ 1 := by cases x <;> decide

/-- A header has at most four errors. -/
theorem headerErrors_toNat_le (rec : List Byte) (c h : Nat) : (headerErrors rec c h).toNat ≤ 4 := by
  unfold headerErrors
  generalize (!crcValid rec 8) = p, ((rec.getD 6 0).toNat == 0) = q,
    ((rec.getD 4 0).toNat != c) = r, ((rec.getD 5 0).toNat != h) = t
  revert p q r t
  decide

/-! ### Gap samples (45_mfm_decoder.md R248) -/

/-- A gap sample counts at most one gap, forgets the last record's end and leaves the rest. -/
theorem Decoder.gapSample_spec (d : Decoder) (s : Nat) :
    d.gapSample s = { d with
      prevEnd := none, gapTotal := (d.gapSample s).gapTotal, numGaps := (d.gapSample s).numGaps }
    ∧ (d.gapSample s).numGaps ≤ d.numGaps + 1 := by
  unfold Decoder.gapSample
  split
  · next h => exact ⟨by cases d; simp_all, by simp⟩
  · split <;> simp

/-! ### Data records (45_mfm_decoder.md R251 to R256) -/

/-- A data record leaves every register but the track, the end of the record and `headerFound`. -/
theorem Decoder.dataRecord_spec (d : Decoder) (cap : Capture) (s : Nat) :
    d.dataRecord cap s = { d with
      trk := (d.dataRecord cap s).trk, prevEnd := (d.dataRecord cap s).prevEnd, headerFound := false } := by
  unfold Decoder.dataRecord
  split <;> rfl

/-- After a DAM no header is latched. -/
@[simp] theorem Decoder.onDam_headerFound (d : Decoder) (p : Params) (cap : Capture) (s : Nat) :
    (d.onDam p cap s).headerFound = false := by
  unfold Decoder.onDam
  split <;> rw [Decoder.dataRecord_spec]

/-! ### The scan (45_mfm_decoder.md R240) -/

/-- No action moves the cursor or the shift register. -/
theorem Decoder.act_cursor (d : Decoder) (p : Params) (cap : Capture) :
    (d.act p cap).t = d.t ∧ (d.act p cap).sr = d.sr := by
  unfold Decoder.act
  split
  · exact ⟨rfl, rfl⟩
  · rw [Decoder.onIdam, (d.gapSample_spec d.start).1]; exact ⟨rfl, rfl⟩
  · unfold Decoder.onDam
    split <;> rw [Decoder.dataRecord_spec] <;> exact ⟨rfl, rfl⟩
  · exact ⟨rfl, rfl⟩

/-- One iteration advances the cursor by exactly one. -/
@[simp] theorem Decoder.iterate_t (d : Decoder) (p : Params) (cap : Capture) :
    (d.iterate p cap).t = d.t + 1 := by
  unfold Decoder.iterate
  split
  · exact congrArg (· + 1) (Decoder.act_cursor (d.shift cap) p cap).1
  · rfl

/-- Scanning `m + n` iterations is scanning `m`, then `n`. -/
theorem Decoder.scan_add (p : Params) (cap : Capture) (m n : Nat) (d : Decoder) :
    Decoder.scan p cap (m + n) d = Decoder.scan p cap n (Decoder.scan p cap m d) := by
  induction m generalizing d with
  | zero => simp [Decoder.scan]
  | succ m ih => rw [Nat.succ_add]; exact ih _

end Sys2Proof.Machine
end

