-- ==== Sys2Proof/Laws/Maps.lean ====
section
/-! SUPPORT. The laws of the two finite maps, the Decoded Track and the adapter's cache: reading after
writing, and that every operation keeps the keys strictly rising (20_memory.md R68, 10_state.md R40). -/

namespace Sys2Proof.Machine

/-! ### The Decoded Track -/

/-- Keys strictly rising, taken apart. -/
theorem Track.wf_cons {e : Nat × Sector} {trk : Track} :
    Track.wf (e :: trk) = true ↔ (∀ d ∈ trk, e.1 < d.1) ∧ Track.wf trk = true := by
  induction trk generalizing e with
  | nil => simp [Track.wf]
  | cons d rest ih =>
    obtain ⟨a, v⟩ := e
    obtain ⟨b, w⟩ := d
    simp only [Track.wf, Bool.and_eq_true, decide_eq_true_eq, List.mem_cons, forall_eq_or_imp]
    constructor
    · rintro ⟨hab, hw⟩
      exact ⟨⟨hab, fun d hd => lt_trans hab ((ih.mp hw).1 d hd)⟩, hw⟩
    · rintro ⟨⟨hab, -⟩, hw⟩
      exact ⟨hab, hw⟩

/-- An entry after an insertion is the inserted one or was there before. -/
theorem Track.mem_set {trk : Track} {k : Nat} {e : Sector} {d : Nat × Sector} (h : d ∈ trk.set k e) :
    d = (k, e) ∨ d ∈ trk := by
  induction trk with
  | nil => simpa [Track.set] using h
  | cons f rest ih =>
    obtain ⟨a, g⟩ := f
    simp only [Track.set] at h
    split at h
    · simpa using h
    · split at h
      · simp only [List.mem_cons] at h ⊢
        tauto
      · rcases List.mem_cons.mp h with h | h
        · simp [h]
        · rcases ih h with h | h <;> simp [h]

/-- An insertion keeps the keys strictly rising. -/
theorem Track.set_wf {trk : Track} (k : Nat) (e : Sector) (h : trk.wf = true) :
    (trk.set k e).wf = true := by
  induction trk with
  | nil => rfl
  | cons f rest ih =>
    obtain ⟨a, g⟩ := f
    have hf := Track.wf_cons.mp h
    simp only [Track.set]
    split
    · refine Track.wf_cons.mpr ⟨fun d hd => ?_, h⟩
      rcases List.mem_cons.mp hd with rfl | hd
      · assumption
      · exact lt_trans ‹_› (hf.1 d hd)
    · split
      · rename_i hka
        subst hka
        exact Track.wf_cons.mpr ⟨hf.1, hf.2⟩
      · refine Track.wf_cons.mpr ⟨fun d hd => ?_, ih hf.2⟩
        rcases Track.mem_set hd with rfl | hd
        · simp only; omega
        · exact hf.1 d hd

/-- Reading after an insertion: the inserted key holds the entry, every other key as before. -/
theorem Track.get_set (trk : Track) (k j : Nat) (e : Sector) :
    (trk.set k e).get j = if j = k then some e else trk.get j := by
  induction trk with
  | nil => simp [Track.set, Track.get, eq_comm]
  | cons f rest ih =>
    obtain ⟨a, g⟩ := f
    simp only [Track.set]
    split
    · by_cases hj : j = k
      · simp [Track.get, hj]
      · simp only [Track.get, if_neg (Ne.symm hj), if_neg hj]
    · split
      · rename_i hka
        subst hka
        by_cases hj : j = k
        · simp [Track.get, hj]
        · simp [Track.get, hj, Ne.symm hj]
      · by_cases hj : a = j
        · have : j ≠ k := by omega
          simp [Track.get, hj, this]
        · simp [Track.get, hj, ih]

/-- Fillers keep the keys strictly rising. -/
theorem Track.fill_wf (n k : Nat) {trk : Track} (h : trk.wf = true) : (Track.fill n k trk).wf = true := by
  induction n generalizing k trk with
  | zero => exact h
  | succ n ih =>
    simp only [Track.fill]
    split
    · exact ih _ (Track.set_wf _ _ h)
    · exact ih _ h

/-- Inserting a sector keeps the keys strictly rising. -/
theorem Track.insertSector_wf {trk : Track} (r : Nat) (bytes : List Byte) (err : Half)
    (h : trk.wf = true) : (trk.insertSector r bytes err).wf = true := by
  simp only [Track.insertSector]
  split
  · exact h
  · split
    · exact Track.set_wf _ _ h
    · split
      · exact Track.set_wf _ _ h
      · exact h

/-! ### The adapter's cache -/

/-- The order of two entries, on their keys. -/
theorem CacheEntry.before_iff {a b : CacheEntry} :
    a.before b = true ↔ a.track < b.track ∨ (a.track = b.track ∧ a.head < b.head) := by
  simp [CacheEntry.before]

/-- The order is transitive. -/
theorem CacheEntry.before_trans {a b c : CacheEntry} (h : a.before b = true) (k : b.before c = true) :
    a.before c = true := by
  rw [CacheEntry.before_iff] at *
  omega

/-- The cache's canonical form, taken apart. -/
theorem cacheWf_cons {e : CacheEntry} {c : List CacheEntry} :
    cacheWf (e :: c) = true ↔
      (∀ f ∈ c, e.before f = true) ∧ e.trk.wf = true ∧ cacheWf c = true := by
  induction c generalizing e with
  | nil => simp [cacheWf]
  | cons f rest ih =>
    simp only [cacheWf, Bool.and_eq_true, List.mem_cons, forall_eq_or_imp]
    constructor
    · rintro ⟨⟨hef, he⟩, hf⟩
      exact ⟨⟨hef, fun d hd => CacheEntry.before_trans hef ((ih.mp hf).1 d hd)⟩, he, hf⟩
    · rintro ⟨⟨hef, -⟩, he, hf⟩
      exact ⟨⟨hef, he⟩, hf⟩

/-- An entry after an insertion is the inserted one or was there before. -/
theorem mem_cacheSet {c : List CacheEntry} {n d : CacheEntry} (h : d ∈ cacheSet c n) :
    d = n ∨ d ∈ c := by
  induction c with
  | nil => simpa [cacheSet] using h
  | cons e rest ih =>
    simp only [cacheSet] at h
    split at h
    · simpa using h
    · split at h
      · simp only [List.mem_cons] at h ⊢
        tauto
      · rcases List.mem_cons.mp h with h | h
        · simp [h]
        · rcases ih h with h | h <;> simp [h]

/-- An insertion keeps the cache's canonical form. -/
theorem cacheSet_wf {c : List CacheEntry} {n : CacheEntry} (hn : n.trk.wf = true)
    (h : cacheWf c = true) : cacheWf (cacheSet c n) = true := by
  induction c with
  | nil => simpa [cacheSet, cacheWf] using hn
  | cons e rest ih =>
    have he := cacheWf_cons.mp h
    simp only [cacheSet]
    split
    · refine cacheWf_cons.mpr ⟨fun d hd => ?_, hn, h⟩
      have hne : n.before e = true := CacheEntry.before_iff.mpr ‹_›
      rcases List.mem_cons.mp hd with rfl | hd
      · exact hne
      · exact CacheEntry.before_trans hne (he.1 d hd)
    · split
      · rename_i hlt heq
        refine cacheWf_cons.mpr ⟨fun d hd => ?_, hn, he.2.2⟩
        have := he.1 d hd
        rw [CacheEntry.before_iff] at this ⊢
        omega
      · refine cacheWf_cons.mpr ⟨fun d hd => ?_, he.2.1, ih he.2.2⟩
        rcases mem_cacheSet hd with rfl | hd
        · rw [CacheEntry.before_iff]
          omega
        · exact he.1 d hd

/-- Reading the cache after an insertion. -/
theorem cacheGet_cacheSet (c : List CacheEntry) (n : CacheEntry) (t h : Nat) :
    cacheGet (cacheSet c n) t h = if n.track = t ∧ n.head = h then some n.trk else cacheGet c t h := by
  induction c with
  | nil => rfl
  | cons e rest ih =>
    simp only [cacheSet]
    split
    · rfl
    · split
      · simp only [cacheGet]
        by_cases hk : n.track = t ∧ n.head = h
        · simp [hk]
        · rw [if_neg hk, if_neg hk, if_neg (by omega)]
      · simp only [cacheGet, ih]
        by_cases hk : e.track = t ∧ e.head = h
        · rw [if_pos hk, if_neg (by omega), if_pos hk]
        · simp [hk]

end Sys2Proof.Machine
end

