-- ==== Sys2Proof/Laws/Memory.lean ====
section
/-! SUPPORT. The laws of the capture's bytes: reading after writing, and that every operation keeps the
canonical form. -/

namespace Sys2Proof.Machine

/-! ### The canonical form, taken apart -/

/-- Every listed index is at least `n`, strictly rising from there, and no listed byte is the unlisted one. -/
theorem Memory.wf_cons {c : Host.Cell} {m : Memory} :
    Memory.wf (c :: m) = true ↔
      c.2 ≠ Memory.unlisted ∧ (∀ d ∈ m, c.1 < d.1) ∧ Memory.wf m = true := by
  induction m generalizing c with
  | nil => simp [Memory.wf]
  | cons d rest ih =>
    obtain ⟨a, v⟩ := c
    obtain ⟨b, w⟩ := d
    simp only [Memory.wf, Bool.and_eq_true, decide_eq_true_eq, bne_iff_ne, ne_eq, List.mem_cons,
      forall_eq_or_imp]
    constructor
    · rintro ⟨⟨hab, hv⟩, hw⟩
      exact ⟨hv, ⟨hab, fun d hd => lt_trans hab ((ih.mp hw).2.1 d hd)⟩, hw⟩
    · rintro ⟨hv, ⟨hab, -⟩, hw⟩
      exact ⟨⟨hab, hv⟩, hw⟩

/-- An index below every listed one reads as unlisted. -/
theorem Memory.get_of_lt {m : Memory} {i : Nat} (h : ∀ d ∈ m, i < d.1) :
    m.get i = Memory.unlisted := by
  induction m with
  | nil => rfl
  | cons d rest ih =>
    obtain ⟨a, v⟩ := d
    have ha : i < a := h (a, v) (by simp)
    simp [Memory.get, Nat.ne_of_gt ha, ih fun d hd => h d (by simp [hd])]

/-- A listed index after a write is the written one or was listed before. -/
theorem Memory.mem_set {m : Memory} {i : Nat} {v : Byte} {d : Host.Cell} (h : d ∈ m.set i v) :
    d = (i, v) ∨ d ∈ m := by
  induction m with
  | nil =>
    simp only [Memory.set] at h
    split at h <;> simp_all
  | cons e rest ih =>
    obtain ⟨a, w⟩ := e
    simp only [Memory.set] at h
    split at h
    · split at h <;> simp_all
    · split at h
      · split at h <;> simp_all
        tauto
      · simp only [List.mem_cons] at h ⊢
        rcases h with h | h
        · exact .inr (.inl h)
        · rcases ih h with h | h
          · exact .inl h
          · exact .inr (.inr h)

/-- A write keeps the canonical form. -/
theorem Memory.set_wf {m : Memory} (i : Nat) (v : Byte) (h : m.wf = true) : (m.set i v).wf = true := by
  induction m with
  | nil =>
    simp only [Memory.set]
    split
    · rfl
    · simpa [Memory.wf] using ‹_›
  | cons e rest ih =>
    obtain ⟨a, w⟩ := e
    have he := Memory.wf_cons.mp h
    simp only [Memory.set]
    split
    · split
      · exact h
      · refine Memory.wf_cons.mpr ⟨‹_›, ?_, h⟩
        intro d hd
        rcases List.mem_cons.mp hd with rfl | hd
        · assumption
        · exact lt_trans ‹_› (he.2.1 d hd)
    · split
      · split
        · exact he.2.2
        · subst_vars
          exact Memory.wf_cons.mpr ⟨‹_›, he.2.1, he.2.2⟩
      · refine Memory.wf_cons.mpr ⟨he.1, ?_, ih he.2.2⟩
        intro d hd
        rcases Memory.mem_set hd with rfl | hd
        · simp only; omega
        · exact he.2.1 d hd

/-- Reading after writing: the written index reads the byte written, every other index as before. -/
theorem Memory.get_set {m : Memory} (h : m.wf = true) (i j : Nat) (v : Byte) :
    (m.set i v).get j = if j = i then v else m.get j := by
  induction m with
  | nil =>
    by_cases hv : v = Memory.unlisted <;> simp [Memory.set, Memory.get, hv, eq_comm]
  | cons e rest ih =>
    obtain ⟨a, w⟩ := e
    have he := Memory.wf_cons.mp h
    have ih := ih he.2.2
    simp only [Memory.set]
    split
    · have hlow : Memory.get ((a, w) :: rest) i = Memory.unlisted :=
        Memory.get_of_lt fun d hd => by
          rcases List.mem_cons.mp hd with rfl | hd
          · assumption
          · exact lt_trans ‹_› (he.2.1 d hd)
      split
      · by_cases hj : j = i
        · subst_vars; simp [hlow]
        · simp [hj]
      · by_cases hj : j = i
        · simp [Memory.get, hj]
        · simp only [hj, if_false]
          rw [Memory.get, if_neg (Ne.symm hj)]
    · split
      · rename_i hia
        subst hia
        by_cases hj : j = i
        · subst hj
          split
          · simp [Memory.get_of_lt he.2.1, ‹v = Memory.unlisted›]
          · simp [Memory.get]
        · split <;> simp [Memory.get, Ne.symm hj]
      · by_cases hj : a = j
        · have : j ≠ i := by omega
          simp [Memory.get, hj, this]
        · simp [Memory.get, hj, ih]

/-- Equal contents are equal data. -/
theorem Memory.ext_get {m n : Memory} (hm : m.wf = true) (hn : n.wf = true)
    (h : ∀ i, m.get i = n.get i) : m = n := by
  induction m generalizing n with
  | nil =>
    cases n with
    | nil => rfl
    | cons e rest =>
      obtain ⟨a, w⟩ := e
      have := h a
      simp [Memory.get] at this
      exact absurd this.symm (Memory.wf_cons.mp hn).1
  | cons e rest ih =>
    obtain ⟨a, w⟩ := e
    have he := Memory.wf_cons.mp hm
    cases n with
    | nil =>
      have := h a
      simp [Memory.get] at this
      exact absurd this he.1
    | cons f rest' =>
      obtain ⟨b, v⟩ := f
      have hf := Memory.wf_cons.mp hn
      have hab : a = b := by
        rcases lt_trichotomy a b with hlt | heq | hgt
        · have h1 : Memory.get ((b, v) :: rest') a = Memory.unlisted :=
            Memory.get_of_lt fun d hd => by
              rcases List.mem_cons.mp hd with rfl | hd
              · exact hlt
              · exact lt_trans hlt (hf.2.1 d hd)
          have := h a
          rw [h1] at this
          simp [Memory.get] at this
          exact absurd this he.1
        · exact heq
        · have h1 : Memory.get ((a, w) :: rest) b = Memory.unlisted :=
            Memory.get_of_lt fun d hd => by
              rcases List.mem_cons.mp hd with rfl | hd
              · exact hgt
              · exact lt_trans hgt (he.2.1 d hd)
          have := h b
          rw [h1] at this
          simp [Memory.get] at this
          exact absurd this.symm hf.1
      subst hab
      have hwv : w = v := by simpa [Memory.get] using h a
      subst hwv
      congr 1
      refine ih he.2.2 hf.2.2 fun i => ?_
      by_cases hi : a = i
      · subst hi
        rw [Memory.get_of_lt he.2.1, Memory.get_of_lt hf.2.1]
      · simpa [Memory.get, hi] using h i

/-! ### Building a memory from bytes -/

/-- Every index listed by `ofBytes` is at least the first. -/
theorem Memory.ofBytes_ge {i : Nat} {bs : List Byte} {d : Host.Cell} (h : d ∈ Memory.ofBytes i bs) :
    i ≤ d.1 := by
  induction bs generalizing i with
  | nil => simp [Memory.ofBytes] at h
  | cons b bs ih =>
    simp only [Memory.ofBytes] at h
    split at h
    · exact le_trans (Nat.le_succ i) (ih h)
    · rcases List.mem_cons.mp h with rfl | h
      · exact le_refl _
      · exact le_trans (Nat.le_succ i) (ih h)

/-- Bytes give a memory in canonical form. -/
theorem Memory.ofBytes_wf (i : Nat) (bs : List Byte) : (Memory.ofBytes i bs).wf = true := by
  induction bs generalizing i with
  | nil => rfl
  | cons b bs ih =>
    simp only [Memory.ofBytes]
    split
    · exact ih (i + 1)
    · exact Memory.wf_cons.mpr ⟨‹_›, fun d hd => Memory.ofBytes_ge hd, ih (i + 1)⟩

/-- The bytes of a memory built from a list. -/
theorem Memory.get_ofBytes (i : Nat) (bs : List Byte) (j : Nat) :
    (Memory.ofBytes i bs).get (i + j) = bs.getD j Memory.unlisted := by
  induction bs generalizing i j with
  | nil => rfl
  | cons b bs ih =>
    have hlow : (Memory.ofBytes (i + 1) bs).get i = Memory.unlisted :=
      Memory.get_of_lt fun d hd => Memory.ofBytes_ge hd
    cases j with
    | zero =>
      by_cases hb : b = Memory.unlisted <;> simp [Memory.ofBytes, Memory.get, hb, hlow]
    | succ j =>
      have := ih (i + 1) j
      rw [show i + 1 + j = i + (j + 1) by omega] at this
      by_cases hb : b = Memory.unlisted
      · simp [Memory.ofBytes, hb, this]
      · simp [Memory.ofBytes, Memory.get, hb, this]

/-! ### Bit access -/

/-- Writing a bit keeps the canonical form. -/
theorem writeBit_wf {buf : Memory} (size : Nat) (c : Cursor) (x : Bool) (h : buf.wf = true) :
    (writeBit size buf c x).1.wf = true := by
  simp only [writeBit]
  split
  · exact h
  · exact Memory.set_wf _ _ h

/-- Writing bits keeps the canonical form. -/
theorem writeBits_wf (size : Nat) (xs : List Bool) {buf : Memory} (c : Cursor) (h : buf.wf = true) :
    (writeBits size xs buf c).1.wf = true := by
  induction xs generalizing buf c with
  | nil => exact h
  | cons x xs ih => exact ih _ (writeBit_wf size c x h)

/-- Appending bits up to the capacity keeps the canonical form. -/
theorem fillBits_wf (size : Nat) (xs : List Bool) {buf : Memory} (c : Cursor) (h : buf.wf = true) :
    (fillBits size xs buf c).1.wf = true := by
  induction xs generalizing buf c with
  | nil => exact h
  | cons x xs ih =>
    simp only [fillBits]
    split
    · exact h
    · exact ih _ (writeBit_wf size c x h)

/-- A cursor advances by one bit (45_mfm_decoder.md R236). -/
theorem Cursor.advance_spec {c : Cursor} (h : c.bit < 8) :
    c.advance.linear = c.linear + 1 ∧ c.advance.bit < 8 := by
  simp only [Cursor.advance, Cursor.linear]
  split <;> constructor <;> simp <;> omega

/-- Below the capacity a write advances the cursor by one bit. -/
theorem writeBit_cursor {size : Nat} {buf : Memory} {c : Cursor} {x : Bool} (hb : c.bit < 8)
    (h : c.linear < 8 * size) :
    (writeBit size buf c x).2.linear = c.linear + 1 ∧ (writeBit size buf c x).2.bit < 8 := by
  have hp : ¬ size ≤ c.pos := by simp only [Cursor.linear] at h; omega
  simpa [writeBit, hp] using Cursor.advance_spec hb

/-- Appending never leaves the buffer (43_streaming_read.md R203). -/
theorem fillBits_bounds {size : Nat} (xs : List Bool) {buf : Memory} {c : Cursor} (hb : c.bit < 8)
    (h : c.linear ≤ 8 * size) :
    (fillBits size xs buf c).2.bit < 8 ∧ (fillBits size xs buf c).2.linear ≤ 8 * size := by
  induction xs generalizing buf c with
  | nil => exact ⟨hb, h⟩
  | cons x xs ih =>
    simp only [fillBits]
    split
    · exact ⟨hb, h⟩
    · have := writeBit_cursor (buf := buf) (x := x) hb (by omega : c.linear < 8 * size)
      exact ih this.2 (by omega)

end Sys2Proof.Machine
end

