-- ==== Sys2Proof/Laws/State.lean ====
section
/-! SUPPORT. What each record update of the machine does to each field, field by field, true by
definition; no later proof unfolds one. -/

namespace Sys2Proof.Machine

variable (s : State)

/-- The fields after the environment's part of a step. -/
@[simp] theorem State.tick_fields :
    (s.tick).st = s.st ∧ (s.tick).fw = s.fw ∧ (s.tick).lastError = s.lastError
      ∧ (s.tick).lastCommand = s.lastCommand ∧ (s.tick).diskPresent = s.diskPresent
      ∧ (s.tick).writeProtected = s.writeProtected ∧ (s.tick).isHDMode = s.isHDMode
      ∧ (s.tick).abortRequested = s.nextMove.abort.getD s.abortRequested
      ∧ (s.tick).tp = s.tp.serve s.nextMove ∧ (s.tick).hs = s.hs ∧ (s.tick).str = s.str
      ∧ (s.tick).cap = s.cap ∧ (s.tick).wr = s.wr ∧ (s.tick).blk = s.blk ∧ (s.tick).dec = s.dec
      ∧ (s.tick).ad = s.ad ∧ (s.tick).out = s.out ∧ (s.tick).now = s.now + s.nextMove.dt
      ∧ (s.tick).phase = s.phase ∧ (s.tick).frames = s.frames ∧ (s.tick).ops = s.ops
      ∧ (s.tick).env = s.restMoves ∧ (s.tick).beyond = s.restBeyond ∧ (s.tick).cur = s.nextMove
      ∧ (s.tick).par = s.par := by
  repeat' constructor

/-- The fields after continuing elsewhere. -/
@[simp] theorem State.goto_fields (p : Phase) :
    (s.goto p).st = s.st ∧ (s.goto p).fw = s.fw ∧ (s.goto p).lastError = s.lastError
      ∧ (s.goto p).lastCommand = s.lastCommand ∧ (s.goto p).diskPresent = s.diskPresent
      ∧ (s.goto p).writeProtected = s.writeProtected ∧ (s.goto p).isHDMode = s.isHDMode
      ∧ (s.goto p).abortRequested = s.abortRequested ∧ (s.goto p).tp = s.tp ∧ (s.goto p).hs = s.hs
      ∧ (s.goto p).str = s.str ∧ (s.goto p).cap = s.cap ∧ (s.goto p).wr = s.wr ∧ (s.goto p).blk = s.blk
      ∧ (s.goto p).dec = s.dec ∧ (s.goto p).ad = s.ad ∧ (s.goto p).out = s.out ∧ (s.goto p).now = s.now
      ∧ (s.goto p).phase = p ∧ (s.goto p).frames = s.frames ∧ (s.goto p).ops = s.ops
      ∧ (s.goto p).env = s.env ∧ (s.goto p).beyond = s.beyond ∧ (s.goto p).cur = s.cur
      ∧ (s.goto p).par = s.par := by
  repeat' constructor

/-- The fields after waiting for a called operation. -/
@[simp] theorem State.push_fields (f : Frame) :
    (s.push f).st = s.st ∧ (s.push f).fw = s.fw ∧ (s.push f).lastError = s.lastError
      ∧ (s.push f).lastCommand = s.lastCommand ∧ (s.push f).diskPresent = s.diskPresent
      ∧ (s.push f).writeProtected = s.writeProtected ∧ (s.push f).isHDMode = s.isHDMode
      ∧ (s.push f).abortRequested = s.abortRequested ∧ (s.push f).tp = s.tp ∧ (s.push f).hs = s.hs
      ∧ (s.push f).str = s.str ∧ (s.push f).cap = s.cap ∧ (s.push f).wr = s.wr ∧ (s.push f).blk = s.blk
      ∧ (s.push f).dec = s.dec ∧ (s.push f).ad = s.ad ∧ (s.push f).out = s.out ∧ (s.push f).now = s.now
      ∧ (s.push f).phase = s.phase ∧ (s.push f).frames = f :: s.frames ∧ (s.push f).ops = s.ops
      ∧ (s.push f).env = s.env ∧ (s.push f).beyond = s.beyond ∧ (s.push f).cur = s.cur
      ∧ (s.push f).par = s.par := by
  repeat' constructor

/-- The fields after taking a waiting operation off. -/
@[simp] theorem State.pop_fields (rest : List Frame) :
    (s.pop rest).st = s.st ∧ (s.pop rest).fw = s.fw ∧ (s.pop rest).lastError = s.lastError
      ∧ (s.pop rest).lastCommand = s.lastCommand ∧ (s.pop rest).diskPresent = s.diskPresent
      ∧ (s.pop rest).writeProtected = s.writeProtected ∧ (s.pop rest).isHDMode = s.isHDMode
      ∧ (s.pop rest).abortRequested = s.abortRequested ∧ (s.pop rest).tp = s.tp
      ∧ (s.pop rest).hs = s.hs ∧ (s.pop rest).str = s.str ∧ (s.pop rest).cap = s.cap
      ∧ (s.pop rest).wr = s.wr ∧ (s.pop rest).blk = s.blk ∧ (s.pop rest).dec = s.dec
      ∧ (s.pop rest).ad = s.ad ∧ (s.pop rest).out = s.out ∧ (s.pop rest).now = s.now
      ∧ (s.pop rest).phase = s.phase ∧ (s.pop rest).frames = rest ∧ (s.pop rest).ops = s.ops
      ∧ (s.pop rest).env = s.env ∧ (s.pop rest).beyond = s.beyond ∧ (s.pop rest).cur = s.cur
      ∧ (s.pop rest).par = s.par := by
  repeat' constructor

/-- The fields after a move of the engine state. -/
@[simp] theorem State.setSt_fields (e : EngineState) :
    (s.setSt e).st = e ∧ (s.setSt e).fw = s.fw ∧ (s.setSt e).lastError = s.lastError
      ∧ (s.setSt e).lastCommand = s.lastCommand ∧ (s.setSt e).diskPresent = s.diskPresent
      ∧ (s.setSt e).writeProtected = s.writeProtected ∧ (s.setSt e).isHDMode = s.isHDMode
      ∧ (s.setSt e).abortRequested = s.abortRequested ∧ (s.setSt e).tp = s.tp ∧ (s.setSt e).hs = s.hs
      ∧ (s.setSt e).str = s.str ∧ (s.setSt e).cap = s.cap ∧ (s.setSt e).wr = s.wr
      ∧ (s.setSt e).blk = s.blk ∧ (s.setSt e).dec = s.dec ∧ (s.setSt e).ad = s.ad
      ∧ (s.setSt e).out = s.out ∧ (s.setSt e).now = s.now ∧ (s.setSt e).phase = s.phase
      ∧ (s.setSt e).frames = s.frames ∧ (s.setSt e).ops = s.ops ∧ (s.setSt e).env = s.env
      ∧ (s.setSt e).beyond = s.beyond ∧ (s.setSt e).cur = s.cur ∧ (s.setSt e).par = s.par := by
  repeat' constructor

/-- The fields after returning a code (60_exceptions.md R305). -/
@[simp] theorem State.ret_fields (c : Code) :
    (s.ret c).st = s.st ∧ (s.ret c).fw = s.fw ∧ (s.ret c).lastError = c
      ∧ (s.ret c).lastCommand = s.lastCommand ∧ (s.ret c).diskPresent = s.diskPresent
      ∧ (s.ret c).writeProtected = s.writeProtected ∧ (s.ret c).isHDMode = s.isHDMode
      ∧ (s.ret c).abortRequested = s.abortRequested ∧ (s.ret c).tp = s.tp ∧ (s.ret c).hs = s.hs
      ∧ (s.ret c).str = s.str ∧ (s.ret c).cap = s.cap ∧ (s.ret c).wr = s.wr ∧ (s.ret c).blk = s.blk
      ∧ (s.ret c).dec = s.dec ∧ (s.ret c).ad = s.ad ∧ (s.ret c).out = s.out ∧ (s.ret c).now = s.now
      ∧ (s.ret c).phase = .ret c ∧ (s.ret c).frames = s.frames ∧ (s.ret c).ops = s.ops
      ∧ (s.ret c).env = s.env ∧ (s.ret c).beyond = s.beyond ∧ (s.ret c).cur = s.cur
      ∧ (s.ret c).par = s.par := by
  repeat' constructor

/-- The fields after a pause. -/
@[simp] theorem State.pause_fields (d : Nat) :
    (s.pause d).st = s.st ∧ (s.pause d).fw = s.fw ∧ (s.pause d).lastError = s.lastError
      ∧ (s.pause d).lastCommand = s.lastCommand ∧ (s.pause d).diskPresent = s.diskPresent
      ∧ (s.pause d).writeProtected = s.writeProtected ∧ (s.pause d).isHDMode = s.isHDMode
      ∧ (s.pause d).abortRequested = s.abortRequested ∧ (s.pause d).tp = s.tp ∧ (s.pause d).hs = s.hs
      ∧ (s.pause d).str = s.str ∧ (s.pause d).cap = s.cap ∧ (s.pause d).wr = s.wr
      ∧ (s.pause d).blk = s.blk ∧ (s.pause d).dec = s.dec ∧ (s.pause d).ad = s.ad
      ∧ (s.pause d).out = s.out ∧ (s.pause d).now = s.now + d ∧ (s.pause d).phase = s.phase
      ∧ (s.pause d).frames = s.frames ∧ (s.pause d).ops = s.ops ∧ (s.pause d).env = s.env
      ∧ (s.pause d).beyond = s.beyond ∧ (s.pause d).cur = s.cur ∧ (s.pause d).par = s.par := by
  repeat' constructor

/-- The fields after a write to the channel. -/
@[simp] theorem State.wrote_fields (bs : List Byte) :
    (s.wrote bs).st = s.st ∧ (s.wrote bs).fw = s.fw ∧ (s.wrote bs).lastError = s.lastError
      ∧ (s.wrote bs).lastCommand = s.lastCommand ∧ (s.wrote bs).diskPresent = s.diskPresent
      ∧ (s.wrote bs).writeProtected = s.writeProtected ∧ (s.wrote bs).isHDMode = s.isHDMode
      ∧ (s.wrote bs).abortRequested = s.abortRequested
      ∧ (s.wrote bs).tp = { s.tp with tx := s.tp.tx ++ bs.take (s.accepted bs.length) }
      ∧ (s.wrote bs).hs = s.hs ∧ (s.wrote bs).str = s.str ∧ (s.wrote bs).cap = s.cap
      ∧ (s.wrote bs).wr = s.wr ∧ (s.wrote bs).blk = s.blk ∧ (s.wrote bs).dec = s.dec
      ∧ (s.wrote bs).ad = s.ad ∧ (s.wrote bs).out = s.out ∧ (s.wrote bs).phase = s.phase
      ∧ (s.wrote bs).frames = s.frames ∧ (s.wrote bs).ops = s.ops ∧ (s.wrote bs).env = s.env
      ∧ (s.wrote bs).beyond = s.beyond ∧ (s.wrote bs).cur = s.cur ∧ (s.wrote bs).par = s.par := by
  repeat' constructor

/-- The fields after a read from the channel. -/
@[simp] theorem State.afterRead_fields (n : Nat) :
    (s.afterRead n).st = s.st ∧ (s.afterRead n).fw = s.fw ∧ (s.afterRead n).lastError = s.lastError
      ∧ (s.afterRead n).lastCommand = s.lastCommand ∧ (s.afterRead n).diskPresent = s.diskPresent
      ∧ (s.afterRead n).writeProtected = s.writeProtected ∧ (s.afterRead n).isHDMode = s.isHDMode
      ∧ (s.afterRead n).abortRequested = s.abortRequested
      ∧ (s.afterRead n).tp = { s.tp with rx := s.tp.rx.drop (s.readCount n) }
      ∧ (s.afterRead n).hs = s.hs ∧ (s.afterRead n).str = s.str ∧ (s.afterRead n).cap = s.cap
      ∧ (s.afterRead n).wr = s.wr ∧ (s.afterRead n).blk = s.blk ∧ (s.afterRead n).dec = s.dec
      ∧ (s.afterRead n).ad = s.ad ∧ (s.afterRead n).out = s.out ∧ (s.afterRead n).phase = s.phase
      ∧ (s.afterRead n).frames = s.frames ∧ (s.afterRead n).ops = s.ops ∧ (s.afterRead n).env = s.env
      ∧ (s.afterRead n).beyond = s.beyond ∧ (s.afterRead n).cur = s.cur ∧ (s.afterRead n).par = s.par := by
  repeat' constructor

/-- The fields after a purge of both FIFOs. -/
@[simp] theorem State.purge_fields :
    (s.purge).st = s.st ∧ (s.purge).fw = s.fw ∧ (s.purge).lastError = s.lastError
      ∧ (s.purge).lastCommand = s.lastCommand ∧ (s.purge).diskPresent = s.diskPresent
      ∧ (s.purge).writeProtected = s.writeProtected ∧ (s.purge).isHDMode = s.isHDMode
      ∧ (s.purge).abortRequested = s.abortRequested ∧ (s.purge).tp = { s.tp with rx := [], tx := [] }
      ∧ (s.purge).hs = s.hs ∧ (s.purge).str = s.str ∧ (s.purge).cap = s.cap ∧ (s.purge).wr = s.wr
      ∧ (s.purge).blk = s.blk ∧ (s.purge).dec = s.dec ∧ (s.purge).ad = s.ad ∧ (s.purge).out = s.out
      ∧ (s.purge).now = s.now ∧ (s.purge).phase = s.phase ∧ (s.purge).frames = s.frames
      ∧ (s.purge).ops = s.ops ∧ (s.purge).env = s.env ∧ (s.purge).beyond = s.beyond
      ∧ (s.purge).cur = s.cur ∧ (s.purge).par = s.par := by
  repeat' constructor

/-- The fields after driving DTR. -/
@[simp] theorem State.setDTR_fields (v : Bool) :
    (s.setDTR v).st = s.st ∧ (s.setDTR v).fw = s.fw ∧ (s.setDTR v).lastError = s.lastError
      ∧ (s.setDTR v).lastCommand = s.lastCommand ∧ (s.setDTR v).diskPresent = s.diskPresent
      ∧ (s.setDTR v).writeProtected = s.writeProtected ∧ (s.setDTR v).isHDMode = s.isHDMode
      ∧ (s.setDTR v).abortRequested = s.abortRequested ∧ (s.setDTR v).tp = { s.tp with dtr := v }
      ∧ (s.setDTR v).hs = s.hs ∧ (s.setDTR v).str = s.str ∧ (s.setDTR v).cap = s.cap
      ∧ (s.setDTR v).wr = s.wr ∧ (s.setDTR v).blk = s.blk ∧ (s.setDTR v).dec = s.dec
      ∧ (s.setDTR v).ad = s.ad ∧ (s.setDTR v).out = s.out ∧ (s.setDTR v).now = s.now
      ∧ (s.setDTR v).phase = s.phase ∧ (s.setDTR v).frames = s.frames ∧ (s.setDTR v).ops = s.ops
      ∧ (s.setDTR v).env = s.env ∧ (s.setDTR v).beyond = s.beyond ∧ (s.setDTR v).cur = s.cur
      ∧ (s.setDTR v).par = s.par := by
  repeat' constructor

/-- The fields after driving RTS. -/
@[simp] theorem State.setRTS_fields (v : Bool) :
    (s.setRTS v).st = s.st ∧ (s.setRTS v).fw = s.fw ∧ (s.setRTS v).lastError = s.lastError
      ∧ (s.setRTS v).lastCommand = s.lastCommand ∧ (s.setRTS v).diskPresent = s.diskPresent
      ∧ (s.setRTS v).writeProtected = s.writeProtected ∧ (s.setRTS v).isHDMode = s.isHDMode
      ∧ (s.setRTS v).abortRequested = s.abortRequested ∧ (s.setRTS v).tp = { s.tp with rts := v }
      ∧ (s.setRTS v).hs = s.hs ∧ (s.setRTS v).str = s.str ∧ (s.setRTS v).cap = s.cap
      ∧ (s.setRTS v).wr = s.wr ∧ (s.setRTS v).blk = s.blk ∧ (s.setRTS v).dec = s.dec
      ∧ (s.setRTS v).ad = s.ad ∧ (s.setRTS v).out = s.out ∧ (s.setRTS v).now = s.now
      ∧ (s.setRTS v).phase = s.phase ∧ (s.setRTS v).frames = s.frames ∧ (s.setRTS v).ops = s.ops
      ∧ (s.setRTS v).env = s.env ∧ (s.setRTS v).beyond = s.beyond ∧ (s.setRTS v).cur = s.cur
      ∧ (s.setRTS v).par = s.par := by
  repeat' constructor

/-- The fields after setting the read timeout. -/
@[simp] theorem State.setReadTimeout_fields (d : Timeout) :
    (s.setReadTimeout d).st = s.st ∧ (s.setReadTimeout d).fw = s.fw
      ∧ (s.setReadTimeout d).lastError = s.lastError ∧ (s.setReadTimeout d).lastCommand = s.lastCommand
      ∧ (s.setReadTimeout d).diskPresent = s.diskPresent
      ∧ (s.setReadTimeout d).writeProtected = s.writeProtected
      ∧ (s.setReadTimeout d).isHDMode = s.isHDMode
      ∧ (s.setReadTimeout d).abortRequested = s.abortRequested
      ∧ (s.setReadTimeout d).tp = { s.tp with rdTimeout := d } ∧ (s.setReadTimeout d).hs = s.hs
      ∧ (s.setReadTimeout d).str = s.str ∧ (s.setReadTimeout d).cap = s.cap
      ∧ (s.setReadTimeout d).wr = s.wr ∧ (s.setReadTimeout d).blk = s.blk
      ∧ (s.setReadTimeout d).dec = s.dec ∧ (s.setReadTimeout d).ad = s.ad
      ∧ (s.setReadTimeout d).out = s.out ∧ (s.setReadTimeout d).now = s.now
      ∧ (s.setReadTimeout d).phase = s.phase ∧ (s.setReadTimeout d).frames = s.frames
      ∧ (s.setReadTimeout d).ops = s.ops ∧ (s.setReadTimeout d).env = s.env
      ∧ (s.setReadTimeout d).beyond = s.beyond ∧ (s.setReadTimeout d).cur = s.cur
      ∧ (s.setReadTimeout d).par = s.par := by
  repeat' constructor

/-- The fields after setting the write timeout. -/
@[simp] theorem State.setWriteTimeout_fields (d : Timeout) :
    (s.setWriteTimeout d).st = s.st ∧ (s.setWriteTimeout d).fw = s.fw
      ∧ (s.setWriteTimeout d).lastError = s.lastError
      ∧ (s.setWriteTimeout d).lastCommand = s.lastCommand
      ∧ (s.setWriteTimeout d).diskPresent = s.diskPresent
      ∧ (s.setWriteTimeout d).writeProtected = s.writeProtected
      ∧ (s.setWriteTimeout d).isHDMode = s.isHDMode
      ∧ (s.setWriteTimeout d).abortRequested = s.abortRequested
      ∧ (s.setWriteTimeout d).tp = { s.tp with wrTimeout := d } ∧ (s.setWriteTimeout d).hs = s.hs
      ∧ (s.setWriteTimeout d).str = s.str ∧ (s.setWriteTimeout d).cap = s.cap
      ∧ (s.setWriteTimeout d).wr = s.wr ∧ (s.setWriteTimeout d).blk = s.blk
      ∧ (s.setWriteTimeout d).dec = s.dec ∧ (s.setWriteTimeout d).ad = s.ad
      ∧ (s.setWriteTimeout d).out = s.out ∧ (s.setWriteTimeout d).now = s.now
      ∧ (s.setWriteTimeout d).phase = s.phase ∧ (s.setWriteTimeout d).frames = s.frames
      ∧ (s.setWriteTimeout d).ops = s.ops ∧ (s.setWriteTimeout d).env = s.env
      ∧ (s.setWriteTimeout d).beyond = s.beyond ∧ (s.setWriteTimeout d).cur = s.cur
      ∧ (s.setWriteTimeout d).par = s.par := by
  repeat' constructor

/-- The fields after opening the port. -/
@[simp] theorem State.opened_fields (path : String) (line : Line) (dtr rts : Bool) :
    (s.opened path line dtr rts).st = s.st ∧ (s.opened path line dtr rts).fw = s.fw
      ∧ (s.opened path line dtr rts).lastError = s.lastError
      ∧ (s.opened path line dtr rts).lastCommand = s.lastCommand
      ∧ (s.opened path line dtr rts).diskPresent = s.diskPresent
      ∧ (s.opened path line dtr rts).writeProtected = s.writeProtected
      ∧ (s.opened path line dtr rts).isHDMode = s.isHDMode
      ∧ (s.opened path line dtr rts).abortRequested = s.abortRequested
      ∧ (s.opened path line dtr rts).hs = s.hs ∧ (s.opened path line dtr rts).str = s.str
      ∧ (s.opened path line dtr rts).cap = s.cap ∧ (s.opened path line dtr rts).wr = s.wr
      ∧ (s.opened path line dtr rts).blk = s.blk ∧ (s.opened path line dtr rts).dec = s.dec
      ∧ (s.opened path line dtr rts).ad = s.ad ∧ (s.opened path line dtr rts).out = s.out
      ∧ (s.opened path line dtr rts).now = s.now ∧ (s.opened path line dtr rts).phase = s.phase
      ∧ (s.opened path line dtr rts).frames = s.frames ∧ (s.opened path line dtr rts).ops = s.ops
      ∧ (s.opened path line dtr rts).env = s.env ∧ (s.opened path line dtr rts).beyond = s.beyond
      ∧ (s.opened path line dtr rts).cur = s.cur ∧ (s.opened path line dtr rts).par = s.par := by
  repeat' constructor

/-- The fields after configuring the port. -/
@[simp] theorem State.configured_fields (baud : Nat) (flow : Bool) :
    (s.configured baud flow).st = s.st ∧ (s.configured baud flow).fw = s.fw
      ∧ (s.configured baud flow).lastError = s.lastError
      ∧ (s.configured baud flow).lastCommand = s.lastCommand
      ∧ (s.configured baud flow).diskPresent = s.diskPresent
      ∧ (s.configured baud flow).writeProtected = s.writeProtected
      ∧ (s.configured baud flow).isHDMode = s.isHDMode
      ∧ (s.configured baud flow).abortRequested = s.abortRequested
      ∧ (s.configured baud flow).tp = { s.tp with line := .raw8N1 baud flow, dtr := true }
      ∧ (s.configured baud flow).hs = s.hs ∧ (s.configured baud flow).str = s.str
      ∧ (s.configured baud flow).cap = s.cap ∧ (s.configured baud flow).wr = s.wr
      ∧ (s.configured baud flow).blk = s.blk ∧ (s.configured baud flow).dec = s.dec
      ∧ (s.configured baud flow).ad = s.ad ∧ (s.configured baud flow).out = s.out
      ∧ (s.configured baud flow).now = s.now ∧ (s.configured baud flow).phase = s.phase
      ∧ (s.configured baud flow).frames = s.frames ∧ (s.configured baud flow).ops = s.ops
      ∧ (s.configured baud flow).env = s.env ∧ (s.configured baud flow).beyond = s.beyond
      ∧ (s.configured baud flow).cur = s.cur ∧ (s.configured baud flow).par = s.par := by
  repeat' constructor

/-- The fields after closing the port. -/
@[simp] theorem State.closeSession_fields :
    (s.closeSession).st = s.st ∧ (s.closeSession).fw = s.fw ∧ (s.closeSession).lastError = s.lastError
      ∧ (s.closeSession).lastCommand = s.lastCommand ∧ (s.closeSession).diskPresent = s.diskPresent
      ∧ (s.closeSession).writeProtected = s.writeProtected ∧ (s.closeSession).isHDMode = s.isHDMode
      ∧ (s.closeSession).abortRequested = s.abortRequested
      ∧ (s.closeSession).tp = Transport.absent s.tp.saved ∧ (s.closeSession).hs = s.hs
      ∧ (s.closeSession).str = s.str ∧ (s.closeSession).cap = s.cap ∧ (s.closeSession).wr = s.wr
      ∧ (s.closeSession).blk = s.blk ∧ (s.closeSession).dec = s.dec ∧ (s.closeSession).ad = s.ad
      ∧ (s.closeSession).out = s.out ∧ (s.closeSession).now = s.now ∧ (s.closeSession).phase = s.phase
      ∧ (s.closeSession).frames = s.frames ∧ (s.closeSession).ops = s.ops
      ∧ (s.closeSession).env = s.env ∧ (s.closeSession).beyond = s.beyond
      ∧ (s.closeSession).cur = s.cur ∧ (s.closeSession).par = s.par := by
  repeat' constructor

/-- The fields after the pause before a command. -/
@[simp] theorem State.commandPause_fields (p : Phase) :
    (s.commandPause p).st = s.st ∧ (s.commandPause p).fw = s.fw
      ∧ (s.commandPause p).lastError = s.lastError ∧ (s.commandPause p).lastCommand = s.lastCommand
      ∧ (s.commandPause p).diskPresent = s.diskPresent
      ∧ (s.commandPause p).writeProtected = s.writeProtected ∧ (s.commandPause p).isHDMode = s.isHDMode
      ∧ (s.commandPause p).abortRequested = s.abortRequested ∧ (s.commandPause p).tp = s.tp
      ∧ (s.commandPause p).hs = s.hs ∧ (s.commandPause p).str = s.str ∧ (s.commandPause p).cap = s.cap
      ∧ (s.commandPause p).wr = s.wr ∧ (s.commandPause p).blk = s.blk ∧ (s.commandPause p).dec = s.dec
      ∧ (s.commandPause p).ad = s.ad ∧ (s.commandPause p).out = s.out
      ∧ (s.commandPause p).now = s.now + Config.cmdPause ∧ (s.commandPause p).phase = p
      ∧ (s.commandPause p).frames = s.frames ∧ (s.commandPause p).ops = s.ops
      ∧ (s.commandPause p).env = s.env ∧ (s.commandPause p).beyond = s.beyond
      ∧ (s.commandPause p).cur = s.cur ∧ (s.commandPause p).par = s.par := by
  repeat' constructor

/-- The fields after recording a command byte before its write. -/
@[simp] theorem State.commandMark_fields (c : Byte) (p : Phase) :
    (s.commandMark c p).st = s.st ∧ (s.commandMark c p).fw = s.fw
      ∧ (s.commandMark c p).lastError = s.lastError ∧ (s.commandMark c p).lastCommand = c
      ∧ (s.commandMark c p).diskPresent = s.diskPresent
      ∧ (s.commandMark c p).writeProtected = s.writeProtected
      ∧ (s.commandMark c p).isHDMode = s.isHDMode
      ∧ (s.commandMark c p).abortRequested = s.abortRequested ∧ (s.commandMark c p).tp = s.tp
      ∧ (s.commandMark c p).hs = s.hs ∧ (s.commandMark c p).str = s.str
      ∧ (s.commandMark c p).cap = s.cap ∧ (s.commandMark c p).wr = s.wr
      ∧ (s.commandMark c p).blk = s.blk ∧ (s.commandMark c p).dec = s.dec
      ∧ (s.commandMark c p).ad = s.ad ∧ (s.commandMark c p).out = s.out
      ∧ (s.commandMark c p).now = s.now ∧ (s.commandMark c p).phase = p
      ∧ (s.commandMark c p).frames = s.frames ∧ (s.commandMark c p).ops = s.ops
      ∧ (s.commandMark c p).env = s.env ∧ (s.commandMark c p).beyond = s.beyond
      ∧ (s.commandMark c p).cur = s.cur ∧ (s.commandMark c p).par = s.par := by
  repeat' constructor

/-- The fields after a write whose count is examined. -/
@[simp] theorem State.send_fields (bs : List Byte) (e : Code) (p : Phase) :
    (s.send bs e p).st = s.st ∧ (s.send bs e p).fw = s.fw ∧ (s.send bs e p).lastError = s.lastError
      ∧ (s.send bs e p).lastCommand = s.lastCommand ∧ (s.send bs e p).diskPresent = s.diskPresent
      ∧ (s.send bs e p).writeProtected = s.writeProtected ∧ (s.send bs e p).isHDMode = s.isHDMode
      ∧ (s.send bs e p).abortRequested = s.abortRequested
      ∧ (s.send bs e p).tp = { s.tp with tx := s.tp.tx ++ bs.take (s.accepted bs.length) }
      ∧ (s.send bs e p).hs = s.hs ∧ (s.send bs e p).str = s.str ∧ (s.send bs e p).cap = s.cap
      ∧ (s.send bs e p).wr = s.wr ∧ (s.send bs e p).blk = s.blk ∧ (s.send bs e p).dec = s.dec
      ∧ (s.send bs e p).ad = s.ad ∧ (s.send bs e p).out = s.out
      ∧ (s.send bs e p).phase = (if s.accepted bs.length = bs.length then p else .exit e)
      ∧ (s.send bs e p).frames = s.frames ∧ (s.send bs e p).ops = s.ops ∧ (s.send bs e p).env = s.env
      ∧ (s.send bs e p).beyond = s.beyond ∧ (s.send bs e p).cur = s.cur ∧ (s.send bs e p).par = s.par := by
  repeat' constructor

/-- The fields after a read whose bytes the next step uses. -/
@[simp] theorem State.readTo_fields (n : Nat) (k : List Byte → Phase) :
    (s.readTo n k).st = s.st ∧ (s.readTo n k).fw = s.fw ∧ (s.readTo n k).lastError = s.lastError
      ∧ (s.readTo n k).lastCommand = s.lastCommand ∧ (s.readTo n k).diskPresent = s.diskPresent
      ∧ (s.readTo n k).writeProtected = s.writeProtected ∧ (s.readTo n k).isHDMode = s.isHDMode
      ∧ (s.readTo n k).abortRequested = s.abortRequested
      ∧ (s.readTo n k).tp = { s.tp with rx := s.tp.rx.drop (s.readCount n) } ∧ (s.readTo n k).hs = s.hs
      ∧ (s.readTo n k).str = s.str ∧ (s.readTo n k).cap = s.cap ∧ (s.readTo n k).wr = s.wr
      ∧ (s.readTo n k).blk = s.blk ∧ (s.readTo n k).dec = s.dec ∧ (s.readTo n k).ad = s.ad
      ∧ (s.readTo n k).out = s.out ∧ (s.readTo n k).phase = k (s.received n)
      ∧ (s.readTo n k).frames = s.frames ∧ (s.readTo n k).ops = s.ops ∧ (s.readTo n k).env = s.env
      ∧ (s.readTo n k).beyond = s.beyond ∧ (s.readTo n k).cur = s.cur ∧ (s.readTo n k).par = s.par := by
  repeat' constructor

/-- The fields after recording a command byte. -/
@[simp] theorem State.setLastCommand_fields (c : Byte) :
    (s.setLastCommand c).st = s.st ∧ (s.setLastCommand c).fw = s.fw
      ∧ (s.setLastCommand c).lastError = s.lastError ∧ (s.setLastCommand c).lastCommand = c
      ∧ (s.setLastCommand c).diskPresent = s.diskPresent
      ∧ (s.setLastCommand c).writeProtected = s.writeProtected
      ∧ (s.setLastCommand c).isHDMode = s.isHDMode
      ∧ (s.setLastCommand c).abortRequested = s.abortRequested ∧ (s.setLastCommand c).tp = s.tp
      ∧ (s.setLastCommand c).hs = s.hs ∧ (s.setLastCommand c).str = s.str
      ∧ (s.setLastCommand c).cap = s.cap ∧ (s.setLastCommand c).wr = s.wr
      ∧ (s.setLastCommand c).blk = s.blk ∧ (s.setLastCommand c).dec = s.dec
      ∧ (s.setLastCommand c).ad = s.ad ∧ (s.setLastCommand c).out = s.out
      ∧ (s.setLastCommand c).now = s.now ∧ (s.setLastCommand c).phase = s.phase
      ∧ (s.setLastCommand c).frames = s.frames ∧ (s.setLastCommand c).ops = s.ops
      ∧ (s.setLastCommand c).env = s.env ∧ (s.setLastCommand c).beyond = s.beyond
      ∧ (s.setLastCommand c).cur = s.cur ∧ (s.setLastCommand c).par = s.par := by
  repeat' constructor

/-- The fields after continuing inside `openPort`. -/
@[simp] theorem State.gotoHs_fields (k : HsStep) :
    (s.gotoHs k).st = s.st ∧ (s.gotoHs k).fw = s.fw ∧ (s.gotoHs k).lastError = s.lastError
      ∧ (s.gotoHs k).lastCommand = s.lastCommand ∧ (s.gotoHs k).diskPresent = s.diskPresent
      ∧ (s.gotoHs k).writeProtected = s.writeProtected ∧ (s.gotoHs k).isHDMode = s.isHDMode
      ∧ (s.gotoHs k).abortRequested = s.abortRequested ∧ (s.gotoHs k).tp = s.tp
      ∧ (s.gotoHs k).hs = s.hs ∧ (s.gotoHs k).str = s.str ∧ (s.gotoHs k).cap = s.cap
      ∧ (s.gotoHs k).wr = s.wr ∧ (s.gotoHs k).blk = s.blk ∧ (s.gotoHs k).dec = s.dec
      ∧ (s.gotoHs k).ad = s.ad ∧ (s.gotoHs k).out = s.out ∧ (s.gotoHs k).now = s.now
      ∧ (s.gotoHs k).phase = .hs k ∧ (s.gotoHs k).frames = s.frames ∧ (s.gotoHs k).ops = s.ops
      ∧ (s.gotoHs k).env = s.env ∧ (s.gotoHs k).beyond = s.beyond ∧ (s.gotoHs k).cur = s.cur
      ∧ (s.gotoHs k).par = s.par := by
  repeat' constructor

/-- The fields after writing the handshake registers. -/
@[simp] theorem State.setHs_fields (h : Handshake) :
    (s.setHs h).st = s.st ∧ (s.setHs h).fw = s.fw ∧ (s.setHs h).lastError = s.lastError
      ∧ (s.setHs h).lastCommand = s.lastCommand ∧ (s.setHs h).diskPresent = s.diskPresent
      ∧ (s.setHs h).writeProtected = s.writeProtected ∧ (s.setHs h).isHDMode = s.isHDMode
      ∧ (s.setHs h).abortRequested = s.abortRequested ∧ (s.setHs h).tp = s.tp ∧ (s.setHs h).hs = h
      ∧ (s.setHs h).str = s.str ∧ (s.setHs h).cap = s.cap ∧ (s.setHs h).wr = s.wr
      ∧ (s.setHs h).blk = s.blk ∧ (s.setHs h).dec = s.dec ∧ (s.setHs h).ad = s.ad
      ∧ (s.setHs h).out = s.out ∧ (s.setHs h).now = s.now ∧ (s.setHs h).phase = s.phase
      ∧ (s.setHs h).frames = s.frames ∧ (s.setHs h).ops = s.ops ∧ (s.setHs h).env = s.env
      ∧ (s.setHs h).beyond = s.beyond ∧ (s.setHs h).cur = s.cur ∧ (s.setHs h).par = s.par := by
  repeat' constructor

/-- The fields after writing `firmwareVersion`. -/
@[simp] theorem State.setFw_fields (fw : Firmware) :
    (s.setFw fw).st = s.st ∧ (s.setFw fw).fw = fw ∧ (s.setFw fw).lastError = s.lastError
      ∧ (s.setFw fw).lastCommand = s.lastCommand ∧ (s.setFw fw).diskPresent = s.diskPresent
      ∧ (s.setFw fw).writeProtected = s.writeProtected ∧ (s.setFw fw).isHDMode = s.isHDMode
      ∧ (s.setFw fw).abortRequested = s.abortRequested ∧ (s.setFw fw).tp = s.tp
      ∧ (s.setFw fw).hs = s.hs ∧ (s.setFw fw).str = s.str ∧ (s.setFw fw).cap = s.cap
      ∧ (s.setFw fw).wr = s.wr ∧ (s.setFw fw).blk = s.blk ∧ (s.setFw fw).dec = s.dec
      ∧ (s.setFw fw).ad = s.ad ∧ (s.setFw fw).out = s.out ∧ (s.setFw fw).now = s.now
      ∧ (s.setFw fw).phase = s.phase ∧ (s.setFw fw).frames = s.frames ∧ (s.setFw fw).ops = s.ops
      ∧ (s.setFw fw).env = s.env ∧ (s.setFw fw).beyond = s.beyond ∧ (s.setFw fw).cur = s.cur
      ∧ (s.setFw fw).par = s.par := by
  repeat' constructor

/-- The fields after writing the streaming registers. -/
@[simp] theorem State.setStr_fields (r : Stream) :
    (s.setStr r).st = s.st ∧ (s.setStr r).fw = s.fw ∧ (s.setStr r).lastError = s.lastError
      ∧ (s.setStr r).lastCommand = s.lastCommand ∧ (s.setStr r).diskPresent = s.diskPresent
      ∧ (s.setStr r).writeProtected = s.writeProtected ∧ (s.setStr r).isHDMode = s.isHDMode
      ∧ (s.setStr r).abortRequested = s.abortRequested ∧ (s.setStr r).tp = s.tp
      ∧ (s.setStr r).hs = s.hs ∧ (s.setStr r).str = r ∧ (s.setStr r).cap = s.cap
      ∧ (s.setStr r).wr = s.wr ∧ (s.setStr r).blk = s.blk ∧ (s.setStr r).dec = s.dec
      ∧ (s.setStr r).ad = s.ad ∧ (s.setStr r).out = s.out ∧ (s.setStr r).now = s.now
      ∧ (s.setStr r).phase = s.phase ∧ (s.setStr r).frames = s.frames ∧ (s.setStr r).ops = s.ops
      ∧ (s.setStr r).env = s.env ∧ (s.setStr r).beyond = s.beyond ∧ (s.setStr r).cur = s.cur
      ∧ (s.setStr r).par = s.par := by
  repeat' constructor

/-- The fields after writing the capture. -/
@[simp] theorem State.setCap_fields (c : Capture) :
    (s.setCap c).st = s.st ∧ (s.setCap c).fw = s.fw ∧ (s.setCap c).lastError = s.lastError
      ∧ (s.setCap c).lastCommand = s.lastCommand ∧ (s.setCap c).diskPresent = s.diskPresent
      ∧ (s.setCap c).writeProtected = s.writeProtected ∧ (s.setCap c).isHDMode = s.isHDMode
      ∧ (s.setCap c).abortRequested = s.abortRequested ∧ (s.setCap c).tp = s.tp
      ∧ (s.setCap c).hs = s.hs ∧ (s.setCap c).str = s.str ∧ (s.setCap c).cap = c
      ∧ (s.setCap c).wr = s.wr ∧ (s.setCap c).blk = s.blk ∧ (s.setCap c).dec = s.dec
      ∧ (s.setCap c).ad = s.ad ∧ (s.setCap c).out = s.out ∧ (s.setCap c).now = s.now
      ∧ (s.setCap c).phase = s.phase ∧ (s.setCap c).frames = s.frames ∧ (s.setCap c).ops = s.ops
      ∧ (s.setCap c).env = s.env ∧ (s.setCap c).beyond = s.beyond ∧ (s.setCap c).cur = s.cur
      ∧ (s.setCap c).par = s.par := by
  repeat' constructor

/-- The fields after writing the non-HD read's registers. -/
@[simp] theorem State.setBlk_fields (b : Block) :
    (s.setBlk b).st = s.st ∧ (s.setBlk b).fw = s.fw ∧ (s.setBlk b).lastError = s.lastError
      ∧ (s.setBlk b).lastCommand = s.lastCommand ∧ (s.setBlk b).diskPresent = s.diskPresent
      ∧ (s.setBlk b).writeProtected = s.writeProtected ∧ (s.setBlk b).isHDMode = s.isHDMode
      ∧ (s.setBlk b).abortRequested = s.abortRequested ∧ (s.setBlk b).tp = s.tp
      ∧ (s.setBlk b).hs = s.hs ∧ (s.setBlk b).str = s.str ∧ (s.setBlk b).cap = s.cap
      ∧ (s.setBlk b).wr = s.wr ∧ (s.setBlk b).blk = b ∧ (s.setBlk b).dec = s.dec
      ∧ (s.setBlk b).ad = s.ad ∧ (s.setBlk b).out = s.out ∧ (s.setBlk b).now = s.now
      ∧ (s.setBlk b).phase = s.phase ∧ (s.setBlk b).frames = s.frames ∧ (s.setBlk b).ops = s.ops
      ∧ (s.setBlk b).env = s.env ∧ (s.setBlk b).beyond = s.beyond ∧ (s.setBlk b).cur = s.cur
      ∧ (s.setBlk b).par = s.par := by
  repeat' constructor

/-- The fields after writing the operands of a track write. -/
@[simp] theorem State.setWr_fields (w : WriteBuf) :
    (s.setWr w).st = s.st ∧ (s.setWr w).fw = s.fw ∧ (s.setWr w).lastError = s.lastError
      ∧ (s.setWr w).lastCommand = s.lastCommand ∧ (s.setWr w).diskPresent = s.diskPresent
      ∧ (s.setWr w).writeProtected = s.writeProtected ∧ (s.setWr w).isHDMode = s.isHDMode
      ∧ (s.setWr w).abortRequested = s.abortRequested ∧ (s.setWr w).tp = s.tp ∧ (s.setWr w).hs = s.hs
      ∧ (s.setWr w).str = s.str ∧ (s.setWr w).cap = s.cap ∧ (s.setWr w).wr = w
      ∧ (s.setWr w).blk = s.blk ∧ (s.setWr w).dec = s.dec ∧ (s.setWr w).ad = s.ad
      ∧ (s.setWr w).out = s.out ∧ (s.setWr w).now = s.now ∧ (s.setWr w).phase = s.phase
      ∧ (s.setWr w).frames = s.frames ∧ (s.setWr w).ops = s.ops ∧ (s.setWr w).env = s.env
      ∧ (s.setWr w).beyond = s.beyond ∧ (s.setWr w).cur = s.cur ∧ (s.setWr w).par = s.par := by
  repeat' constructor

/-- The fields after writing the decoder's registers. -/
@[simp] theorem State.setDec_fields (d : Decoder) :
    (s.setDec d).st = s.st ∧ (s.setDec d).fw = s.fw ∧ (s.setDec d).lastError = s.lastError
      ∧ (s.setDec d).lastCommand = s.lastCommand ∧ (s.setDec d).diskPresent = s.diskPresent
      ∧ (s.setDec d).writeProtected = s.writeProtected ∧ (s.setDec d).isHDMode = s.isHDMode
      ∧ (s.setDec d).abortRequested = s.abortRequested ∧ (s.setDec d).tp = s.tp
      ∧ (s.setDec d).hs = s.hs ∧ (s.setDec d).str = s.str ∧ (s.setDec d).cap = s.cap
      ∧ (s.setDec d).wr = s.wr ∧ (s.setDec d).blk = s.blk ∧ (s.setDec d).dec = d
      ∧ (s.setDec d).ad = s.ad ∧ (s.setDec d).out = s.out ∧ (s.setDec d).now = s.now
      ∧ (s.setDec d).phase = s.phase ∧ (s.setDec d).frames = s.frames ∧ (s.setDec d).ops = s.ops
      ∧ (s.setDec d).env = s.env ∧ (s.setDec d).beyond = s.beyond ∧ (s.setDec d).cur = s.cur
      ∧ (s.setDec d).par = s.par := by
  repeat' constructor

/-- The fields after writing the adapter's registers. -/
@[simp] theorem State.setAd_fields (a : Adapter) :
    (s.setAd a).st = s.st ∧ (s.setAd a).fw = s.fw ∧ (s.setAd a).lastError = s.lastError
      ∧ (s.setAd a).lastCommand = s.lastCommand ∧ (s.setAd a).diskPresent = s.diskPresent
      ∧ (s.setAd a).writeProtected = s.writeProtected ∧ (s.setAd a).isHDMode = s.isHDMode
      ∧ (s.setAd a).abortRequested = s.abortRequested ∧ (s.setAd a).tp = s.tp ∧ (s.setAd a).hs = s.hs
      ∧ (s.setAd a).str = s.str ∧ (s.setAd a).cap = s.cap ∧ (s.setAd a).wr = s.wr
      ∧ (s.setAd a).blk = s.blk ∧ (s.setAd a).dec = s.dec ∧ (s.setAd a).ad = a
      ∧ (s.setAd a).out = s.out ∧ (s.setAd a).now = s.now ∧ (s.setAd a).phase = s.phase
      ∧ (s.setAd a).frames = s.frames ∧ (s.setAd a).ops = s.ops ∧ (s.setAd a).env = s.env
      ∧ (s.setAd a).beyond = s.beyond ∧ (s.setAd a).cur = s.cur ∧ (s.setAd a).par = s.par := by
  repeat' constructor

/-- The fields after writing `diskPresent`. -/
@[simp] theorem State.setDiskPresent_fields (x : Bool) :
    (s.setDiskPresent x).st = s.st ∧ (s.setDiskPresent x).fw = s.fw
      ∧ (s.setDiskPresent x).lastError = s.lastError ∧ (s.setDiskPresent x).lastCommand = s.lastCommand
      ∧ (s.setDiskPresent x).diskPresent = x ∧ (s.setDiskPresent x).writeProtected = s.writeProtected
      ∧ (s.setDiskPresent x).isHDMode = s.isHDMode
      ∧ (s.setDiskPresent x).abortRequested = s.abortRequested ∧ (s.setDiskPresent x).tp = s.tp
      ∧ (s.setDiskPresent x).hs = s.hs ∧ (s.setDiskPresent x).str = s.str
      ∧ (s.setDiskPresent x).cap = s.cap ∧ (s.setDiskPresent x).wr = s.wr
      ∧ (s.setDiskPresent x).blk = s.blk ∧ (s.setDiskPresent x).dec = s.dec
      ∧ (s.setDiskPresent x).ad = s.ad ∧ (s.setDiskPresent x).out = s.out
      ∧ (s.setDiskPresent x).now = s.now ∧ (s.setDiskPresent x).phase = s.phase
      ∧ (s.setDiskPresent x).frames = s.frames ∧ (s.setDiskPresent x).ops = s.ops
      ∧ (s.setDiskPresent x).env = s.env ∧ (s.setDiskPresent x).beyond = s.beyond
      ∧ (s.setDiskPresent x).cur = s.cur ∧ (s.setDiskPresent x).par = s.par := by
  repeat' constructor

/-- The fields after writing `writeProtected`. -/
@[simp] theorem State.setProtect_fields (x : Bool) (c : Code) :
    (s.setProtect x c).st = s.st ∧ (s.setProtect x c).fw = s.fw
      ∧ (s.setProtect x c).lastError = s.lastError ∧ (s.setProtect x c).lastCommand = s.lastCommand
      ∧ (s.setProtect x c).diskPresent = s.diskPresent ∧ (s.setProtect x c).writeProtected = x
      ∧ (s.setProtect x c).isHDMode = s.isHDMode ∧ (s.setProtect x c).abortRequested = s.abortRequested
      ∧ (s.setProtect x c).tp = s.tp ∧ (s.setProtect x c).hs = s.hs ∧ (s.setProtect x c).str = s.str
      ∧ (s.setProtect x c).cap = s.cap ∧ (s.setProtect x c).wr = s.wr ∧ (s.setProtect x c).blk = s.blk
      ∧ (s.setProtect x c).dec = s.dec ∧ (s.setProtect x c).ad = s.ad ∧ (s.setProtect x c).out = s.out
      ∧ (s.setProtect x c).now = s.now ∧ (s.setProtect x c).phase = .exit c
      ∧ (s.setProtect x c).frames = s.frames ∧ (s.setProtect x c).ops = s.ops
      ∧ (s.setProtect x c).env = s.env ∧ (s.setProtect x c).beyond = s.beyond
      ∧ (s.setProtect x c).cur = s.cur ∧ (s.setProtect x c).par = s.par := by
  repeat' constructor

/-- The fields after writing `isHDMode`. -/
@[simp] theorem State.setDensity_fields (x : Bool) :
    (s.setDensity x).st = s.st ∧ (s.setDensity x).fw = s.fw ∧ (s.setDensity x).lastError = s.lastError
      ∧ (s.setDensity x).lastCommand = s.lastCommand ∧ (s.setDensity x).diskPresent = s.diskPresent
      ∧ (s.setDensity x).writeProtected = s.writeProtected ∧ (s.setDensity x).isHDMode = x
      ∧ (s.setDensity x).abortRequested = s.abortRequested ∧ (s.setDensity x).tp = s.tp
      ∧ (s.setDensity x).hs = s.hs ∧ (s.setDensity x).str = s.str ∧ (s.setDensity x).cap = s.cap
      ∧ (s.setDensity x).wr = s.wr ∧ (s.setDensity x).blk = s.blk ∧ (s.setDensity x).dec = s.dec
      ∧ (s.setDensity x).ad = s.ad ∧ (s.setDensity x).out = s.out ∧ (s.setDensity x).now = s.now
      ∧ (s.setDensity x).phase = .exit .ok ∧ (s.setDensity x).frames = s.frames
      ∧ (s.setDensity x).ops = s.ops ∧ (s.setDensity x).env = s.env
      ∧ (s.setDensity x).beyond = s.beyond ∧ (s.setDensity x).cur = s.cur
      ∧ (s.setDensity x).par = s.par := by
  repeat' constructor

/-- The fields after clearing `abortRequested` (43_streaming_read.md R210). -/
@[simp] theorem State.clearAbort_fields (k : StreamStep) :
    (s.clearAbort k).st = s.st ∧ (s.clearAbort k).fw = s.fw ∧ (s.clearAbort k).lastError = s.lastError
      ∧ (s.clearAbort k).lastCommand = s.lastCommand ∧ (s.clearAbort k).diskPresent = s.diskPresent
      ∧ (s.clearAbort k).writeProtected = s.writeProtected ∧ (s.clearAbort k).isHDMode = s.isHDMode
      ∧ (s.clearAbort k).abortRequested = false ∧ (s.clearAbort k).tp = s.tp
      ∧ (s.clearAbort k).hs = s.hs ∧ (s.clearAbort k).str = s.str ∧ (s.clearAbort k).cap = s.cap
      ∧ (s.clearAbort k).wr = s.wr ∧ (s.clearAbort k).blk = s.blk ∧ (s.clearAbort k).dec = s.dec
      ∧ (s.clearAbort k).ad = s.ad ∧ (s.clearAbort k).out = s.out ∧ (s.clearAbort k).now = s.now
      ∧ (s.clearAbort k).phase = .stream k ∧ (s.clearAbort k).frames = s.frames
      ∧ (s.clearAbort k).ops = s.ops ∧ (s.clearAbort k).env = s.env
      ∧ (s.clearAbort k).beyond = s.beyond ∧ (s.clearAbort k).cur = s.cur
      ∧ (s.clearAbort k).par = s.par := by
  repeat' constructor

/-- The fields after continuing inside the streamed read. -/
@[simp] theorem State.gotoStream_fields (k : StreamStep) :
    (s.gotoStream k).st = s.st ∧ (s.gotoStream k).fw = s.fw ∧ (s.gotoStream k).lastError = s.lastError
      ∧ (s.gotoStream k).lastCommand = s.lastCommand ∧ (s.gotoStream k).diskPresent = s.diskPresent
      ∧ (s.gotoStream k).writeProtected = s.writeProtected ∧ (s.gotoStream k).isHDMode = s.isHDMode
      ∧ (s.gotoStream k).abortRequested = s.abortRequested ∧ (s.gotoStream k).tp = s.tp
      ∧ (s.gotoStream k).hs = s.hs ∧ (s.gotoStream k).str = s.str ∧ (s.gotoStream k).cap = s.cap
      ∧ (s.gotoStream k).wr = s.wr ∧ (s.gotoStream k).blk = s.blk ∧ (s.gotoStream k).dec = s.dec
      ∧ (s.gotoStream k).ad = s.ad ∧ (s.gotoStream k).out = s.out ∧ (s.gotoStream k).now = s.now
      ∧ (s.gotoStream k).phase = .stream k ∧ (s.gotoStream k).frames = s.frames
      ∧ (s.gotoStream k).ops = s.ops ∧ (s.gotoStream k).env = s.env
      ∧ (s.gotoStream k).beyond = s.beyond ∧ (s.gotoStream k).cur = s.cur
      ∧ (s.gotoStream k).par = s.par := by
  repeat' constructor

/-- The fields after writing `bitLength`. -/
@[simp] theorem State.setLength_fields (n : Nat) (c : Code) :
    (s.setLength n c).st = s.st ∧ (s.setLength n c).fw = s.fw
      ∧ (s.setLength n c).lastError = s.lastError ∧ (s.setLength n c).lastCommand = s.lastCommand
      ∧ (s.setLength n c).diskPresent = s.diskPresent
      ∧ (s.setLength n c).writeProtected = s.writeProtected ∧ (s.setLength n c).isHDMode = s.isHDMode
      ∧ (s.setLength n c).abortRequested = s.abortRequested ∧ (s.setLength n c).tp = s.tp
      ∧ (s.setLength n c).hs = s.hs ∧ (s.setLength n c).str = s.str
      ∧ (s.setLength n c).cap = { s.cap with bitLength := n } ∧ (s.setLength n c).wr = s.wr
      ∧ (s.setLength n c).blk = s.blk ∧ (s.setLength n c).dec = s.dec ∧ (s.setLength n c).ad = s.ad
      ∧ (s.setLength n c).out = s.out ∧ (s.setLength n c).now = s.now
      ∧ (s.setLength n c).phase = .exit c ∧ (s.setLength n c).frames = s.frames
      ∧ (s.setLength n c).ops = s.ops ∧ (s.setLength n c).env = s.env
      ∧ (s.setLength n c).beyond = s.beyond ∧ (s.setLength n c).cur = s.cur
      ∧ (s.setLength n c).par = s.par := by
  repeat' constructor

/-- The fields after writing `chunk`. -/
@[simp] theorem State.setChunk_fields (bs : List Byte) (k : StreamStep) :
    (s.setChunk bs k).st = s.st ∧ (s.setChunk bs k).fw = s.fw
      ∧ (s.setChunk bs k).lastError = s.lastError ∧ (s.setChunk bs k).lastCommand = s.lastCommand
      ∧ (s.setChunk bs k).diskPresent = s.diskPresent
      ∧ (s.setChunk bs k).writeProtected = s.writeProtected ∧ (s.setChunk bs k).isHDMode = s.isHDMode
      ∧ (s.setChunk bs k).abortRequested = s.abortRequested ∧ (s.setChunk bs k).tp = s.tp
      ∧ (s.setChunk bs k).hs = s.hs ∧ (s.setChunk bs k).str = { s.str with chunk := bs }
      ∧ (s.setChunk bs k).cap = s.cap ∧ (s.setChunk bs k).wr = s.wr ∧ (s.setChunk bs k).blk = s.blk
      ∧ (s.setChunk bs k).dec = s.dec ∧ (s.setChunk bs k).ad = s.ad ∧ (s.setChunk bs k).out = s.out
      ∧ (s.setChunk bs k).now = s.now ∧ (s.setChunk bs k).phase = .stream k
      ∧ (s.setChunk bs k).frames = s.frames ∧ (s.setChunk bs k).ops = s.ops
      ∧ (s.setChunk bs k).env = s.env ∧ (s.setChunk bs k).beyond = s.beyond
      ∧ (s.setChunk bs k).cur = s.cur ∧ (s.setChunk bs k).par = s.par := by
  repeat' constructor

/-- The fields after advancing the write cursor. -/
@[simp] theorem State.advanceCursor_fields (xs : List Bool) :
    (s.advanceCursor xs).st = s.st ∧ (s.advanceCursor xs).fw = s.fw
      ∧ (s.advanceCursor xs).lastError = s.lastError ∧ (s.advanceCursor xs).lastCommand = s.lastCommand
      ∧ (s.advanceCursor xs).diskPresent = s.diskPresent
      ∧ (s.advanceCursor xs).writeProtected = s.writeProtected
      ∧ (s.advanceCursor xs).isHDMode = s.isHDMode
      ∧ (s.advanceCursor xs).abortRequested = s.abortRequested ∧ (s.advanceCursor xs).tp = s.tp
      ∧ (s.advanceCursor xs).hs = s.hs
      ∧ (s.advanceCursor xs).str = { s.str with wcur := s.str.wcur.written s.cap.size }
      ∧ (s.advanceCursor xs).cap = s.cap ∧ (s.advanceCursor xs).wr = s.wr
      ∧ (s.advanceCursor xs).blk = s.blk ∧ (s.advanceCursor xs).dec = s.dec
      ∧ (s.advanceCursor xs).ad = s.ad ∧ (s.advanceCursor xs).out = s.out
      ∧ (s.advanceCursor xs).now = s.now ∧ (s.advanceCursor xs).phase = .stream (.symbols xs)
      ∧ (s.advanceCursor xs).frames = s.frames ∧ (s.advanceCursor xs).ops = s.ops
      ∧ (s.advanceCursor xs).env = s.env ∧ (s.advanceCursor xs).beyond = s.beyond
      ∧ (s.advanceCursor xs).cur = s.cur ∧ (s.advanceCursor xs).par = s.par := by
  repeat' constructor

/-- The fields after handing a value to the caller. -/
@[simp] theorem State.setOut_fields (o : Out) :
    (s.setOut o).st = s.st ∧ (s.setOut o).fw = s.fw ∧ (s.setOut o).lastError = s.lastError
      ∧ (s.setOut o).lastCommand = s.lastCommand ∧ (s.setOut o).diskPresent = s.diskPresent
      ∧ (s.setOut o).writeProtected = s.writeProtected ∧ (s.setOut o).isHDMode = s.isHDMode
      ∧ (s.setOut o).abortRequested = s.abortRequested ∧ (s.setOut o).tp = s.tp
      ∧ (s.setOut o).hs = s.hs ∧ (s.setOut o).str = s.str ∧ (s.setOut o).cap = s.cap
      ∧ (s.setOut o).wr = s.wr ∧ (s.setOut o).blk = s.blk ∧ (s.setOut o).dec = s.dec
      ∧ (s.setOut o).ad = s.ad ∧ (s.setOut o).out = o ∧ (s.setOut o).now = s.now
      ∧ (s.setOut o).phase = s.phase ∧ (s.setOut o).frames = s.frames ∧ (s.setOut o).ops = s.ops
      ∧ (s.setOut o).env = s.env ∧ (s.setOut o).beyond = s.beyond ∧ (s.setOut o).cur = s.cur
      ∧ (s.setOut o).par = s.par := by
  repeat' constructor

end Sys2Proof.Machine
end

