-- ==== Sys2Proof/Laws/Ops.lean ====
section
/-! SUPPORT. One lemma for each shared operation, which says once everything it can do: when it answers a
next state, and which. -/

namespace Sys2Proof.Machine

/-! ### Answers -/

/-- Whatever next state the answer gives satisfies `P`. -/
def Answer.Ensures (a : Answer) (P : State → Prop) : Prop := ∀ t, a = .next t → P t

@[simp] theorem Answer.ensures_next {s : State} {P : State → Prop} :
    Answer.Ensures (.next s) P ↔ P s := by
  simp [Answer.Ensures]

@[simp] theorem Answer.ensures_refused {r : Refusal} {P : State → Prop} :
    Answer.Ensures (.refused r) P ↔ True := by
  simp [Answer.Ensures]

@[simp] theorem Answer.ensures_fault {r : Fault} {P : State → Prop} :
    Answer.Ensures (.fault r) P ↔ True := by
  simp [Answer.Ensures]

@[simp] theorem Answer.ensures_ite {c : Prop} [Decidable c] {a b : Answer} {P : State → Prop} :
    Answer.Ensures (if c then a else b) P ↔ (c → a.Ensures P) ∧ (¬ c → b.Ensures P) := by
  by_cases h : c <;> simp [h]

@[simp] theorem Answer.onNext_ensures {a : Answer} {f : State → State} {P : State → Prop} :
    (a.onNext f).Ensures P ↔ a.Ensures fun t => P (f t) := by
  cases a <;> simp [Answer.onNext]

variable {s n : State} {P : State → Prop}

/-- A command goes on exactly where none of its three refusals holds (42_commands.md R172). -/
theorem State.command_eq_next {allowed : Bool} {t : State} :
    s.command allowed n = .next t ↔
      s.phase.isIssue = true ∧ allowed = true ∧ s.tp.isOpen = true ∧ t = n := by
  simp only [State.command, State.commandRefusal]
  cases s.phase.isIssue <;> cases allowed <;> cases s.tp.isOpen <;> simp [eq_comm]

@[simp] theorem State.command_ensures {allowed : Bool} :
    (s.command allowed n).Ensures P ↔
      (s.phase.isIssue = true → allowed = true → s.tp.isOpen = true → P n) := by
  simp only [Answer.Ensures, State.command_eq_next]
  constructor
  · exact fun h a b c => h n ⟨a, b, c, rfl⟩
  · rintro h t ⟨a, b, c, rfl⟩
    exact h a b c

/-- A response goes on exactly in the exchange that awaits it (30_encoding.md R95). -/
theorem State.answer_eq_next {a : Await} {t : State} :
    s.answer a n = .next t ↔ s.phase.judging = some a ∧ t = n := by
  by_cases h : s.phase.judging = some a <;> simp [State.answer, h, eq_comm]

/-- The response the engine judges is the one its place names. -/
theorem Phase.judging_eq_some {p : Phase} {a : Await} :
    p.judging = some a ↔ ∃ bs, p = .judge a bs := by
  cases p <;> simp [Phase.judging]

@[simp] theorem State.answer_ensures {a : Await} :
    (s.answer a n).Ensures P ↔ (∀ bs, s.phase = .judge a bs → P n) := by
  simp [State.answer, Phase.judging_eq_some]

/-- A primitive of the channel goes on exactly where there is a Transport Session (93 U4). -/
theorem State.onChannel_eq_next {t : State} :
    s.onChannel n = .next t ↔ s.tp.isOpen = true ∧ t = n := by
  by_cases h : s.tp.isOpen = true <;> simp [State.onChannel, h, eq_comm]

@[simp] theorem State.onChannel_ensures :
    (s.onChannel n).Ensures P ↔ (s.tp.isOpen = true → P n) := by
  simp [State.onChannel]

@[simp] theorem State.onDevice_ensures {a : Answer} :
    (s.onDevice a).Ensures P ↔ (s.ad.attached = true → a.Ensures P) := by
  simp [State.onDevice]

@[simp] theorem State.onMatch_ensures {d : Decoder} :
    (s.onMatch d).Ensures P ↔ (s.testing = true → P (s.setDec d)) := by
  simp [State.onMatch]

/-- A write-protect byte goes on in the two exchanges that read one (42_commands.md R182, R183). -/
@[simp] theorem State.protectByte_ensures {prot : Bool} :
    (s.protectByte prot).Ensures P ↔
      (∀ f bs, s.phase = .judge (.diskProtect f) bs → P (s.finishCheckDisk f prot))
        ∧ (∀ bs, s.phase = .judge .wpByte bs → P (s.setProtect prot .ok)) := by
  simp only [State.protectByte]
  split <;> simp_all

/-- A command's operation begins where its engine state allows it (42_commands.md R172). -/
@[simp] theorem State.startCommand_ensures {allowed : Bool} {w : List Byte} :
    (s.startCommand allowed w).Ensures P ↔ (allowed = true → P (s.goto (.pause w))) := by
  cases allowed <;> simp [State.startCommand]

/-- What stands before the command of a track write (44_track_write.md R220, R222). -/
@[simp] theorem State.guardWrite_ensures {w : WriteBuf} {precomp : Bool} {a : Answer} :
    (s.guardWrite w precomp a).Ensures P ↔
      (s.writeProtected = true → P (s.ret .writeProtected))
        ∧ (s.writeProtected = false → (precomp = true → w.transitions.all legalRun = true) →
            a.Ensures P) := by
  cases h : s.writeProtected <;> cases precomp <;> cases h' : w.transitions.all legalRun <;>
    simp_all [State.guardWrite]

/-! ### Register updates -/

/-- A move of the engine state before a return: everything it can do (42_commands.md R180, R181). -/
theorem State.moveAndReturn_cases (s : State) (moves : Bool) (e : EngineState) (c : Code) :
    (moves = true ∧ s.moveAndReturn moves e c = (s.setSt e).goto (.exit c))
    ∨ (moves = false ∧ s.moveAndReturn moves e c = s.ret c) := by
  cases moves <;> simp [State.moveAndReturn]

/-- The next capture bit of a data byte: a full buffer drops it, none is left, or it is written
(43_streaming_read.md R203). -/
theorem State.nextSymbol_cases (s : State) (xs : List Bool) :
    (s.written = 8 * s.cap.size ∧ s.nextSymbol xs = s.goto (.mark [Cmd.abort]))
    ∨ (s.written ≠ 8 * s.cap.size ∧ xs = [] ∧ s.nextSymbol xs = s.gotoStream .bytes)
    ∨ ∃ x rest, s.written ≠ 8 * s.cap.size ∧ xs = x :: rest ∧ s.nextSymbol xs
        = (s.setCap { s.cap with
            buf := (writeBit s.cap.size s.cap.buf s.str.wcur x).1 }).gotoStream (.advance rest) := by
  by_cases h : s.written = 8 * s.cap.size
  · exact .inl ⟨h, by simp [State.nextSymbol, h]⟩
  · cases xs with
    | nil => exact .inr (.inl ⟨h, rfl, by simp [State.nextSymbol, h]⟩)
    | cons x rest => exact .inr (.inr ⟨x, rest, h, rfl, by simp [State.nextSymbol, h]⟩)

/-- The two updates of one capture bit are `WriteBit` (45_mfm_decoder.md R237). -/
theorem writeBit_snd (size : Nat) (buf : Memory) (c : Cursor) (x : Bool) :
    (writeBit size buf c x).2 = c.written size := by
  simp only [writeBit, Cursor.written]
  split <;> rfl

/-- After the abort byte: a waiting poll goes on, or else the rest of the chunk
(43_streaming_read.md R202, R203). -/
theorem State.streamAborted_cases (s : State) :
    (∃ rest, s.frames = .abortPoll :: rest ∧ s.streamAborted
        = ((s.setStr { s.str with abortSent := true }).pop rest).gotoStream .user)
    ∨ (s.frames.head? ≠ some .abortPoll ∧ s.streamAborted
        = (s.setStr { s.str with abortSent := true }).gotoStream .bytes) := by
  simp only [State.streamAborted, State.setStr_fields]
  split
  · exact .inl ⟨_, ‹_›, rfl⟩
  · next h =>
    refine .inr ⟨fun hh => ?_, rfl⟩
    obtain ⟨rest, hr⟩ := List.head?_eq_some_iff.mp hh
    exact h rest hr

/-! ### The environment -/

/-- The environment's part of a step in which the environment does nothing. -/
theorem State.tick_quiet (h : s.Quiet) : s.tick = { s with cur := Move.quiet } := by
  obtain ⟨he, hb⟩ := h
  obtain ⟨⟩ := s
  simp only at he hb
  subst he hb
  simp [State.tick, State.nextMove, State.restMoves, State.restBeyond, Beyond.move, Beyond.refill,
    Beyond.next, Move.quiet, Transport.serve]

/-- A quiet environment stays quiet. -/
theorem State.quiet_tick (h : s.Quiet) : s.tick.Quiet := by rw [State.tick_quiet h]; exact h

/-! ### The channel -/

/-- The environment's part of a step leaves whether there is a Transport Session. -/
@[simp] theorem Transport.serve_isOpen (tp : Transport) (m : Move) : (tp.serve m).isOpen = tp.isOpen := by
  simp only [Transport.serve]
  split <;> rfl

/-- A write accepts at most what it is given. -/
theorem State.accepted_le (s : State) (k : Nat) : s.accepted k ≤ k := Nat.min_le_right _ _

/-- A read returns at most what it asks for, and at most what is there (40_transport.md R134). -/
theorem State.received_length (s : State) (k : Nat) :
    (s.received k).length = s.readCount k ∧ s.readCount k ≤ k ∧ s.readCount k ≤ s.tp.rx.length := by
  simp only [State.received, State.readCount, List.length_take]
  omega

/-- A read splits the receive FIFO: what it returns, then what stays (20_memory.md R66). -/
theorem State.received_append (s : State) (k : Nat) :
    s.received k ++ (s.afterRead k).tp.rx = s.tp.rx := by
  simp [State.received]

/-- A write whose count is examined: everything it can do (42_commands.md R170). -/
theorem State.send_cases (s : State) (bs : List Byte) (e : Code) (p : Phase) :
    (s.accepted bs.length = bs.length ∧ s.send bs e p = (s.wrote bs).goto p)
    ∨ (s.accepted bs.length < bs.length ∧ s.send bs e p = (s.wrote bs).goto (.exit e)) := by
  have hle := s.accepted_le bs.length
  by_cases h : s.accepted bs.length = bs.length
  · exact .inl ⟨h, by simp [State.send, h]⟩
  · exact .inr ⟨by omega, by simp [State.send, h]⟩

/-- The write of a command is such a write, of `SendFailed` (42_commands.md R171). -/
@[simp] theorem State.sendCommand_eq (s : State) (bs : List Byte) (p : Phase) :
    s.sendCommand bs p = s.send bs .sendFailed p := rfl

end Sys2Proof.Machine
end

