-- ==== Sys2Proof/Laws/PerInstr.lean ====
section
/-! SUPPORT. One lemma per instruction of the family `EncodesInContext`: the length of its encoding is
that of its row in spec/opcode_table.json, the track command with its two digits. -/

namespace Sys2Proof.Laws.EncodesInContext

/-- The number of bytes an instruction has in its context (30_encoding.md R91, R94, R104). -/
def width : Ctx → Instr → Nat
  | .command, .gotoTrack _ => 3
  | .echo, _ => 5
  | .version, _ => 5
  | .scan, _ => 8
  | _, _ => 1

/-- An instruction's encoding has the width of its row, whatever the sync constants and operands. -/
def Statement (i : Instr) : Prop := ∀ k : SyncWords, (encode k i).length = width i.ctx i

theorem version : Statement .version := fun _ => rfl

theorem rewind : Statement .rewind := fun _ => rfl

theorem gotoTrack (n : Nat) : Statement (.gotoTrack n) := fun _ => rfl

theorem head0 : Statement .head0 := fun _ => rfl

theorem head1 : Statement .head1 := fun _ => rfl

theorem readTrack : Statement .readTrack := fun _ => rfl

theorem readStream : Statement .readStream := fun _ => rfl

theorem enable : Statement .enable := fun _ => rfl

theorem disable : Statement .disable := fun _ => rfl

theorem writeTrack : Statement .writeTrack := fun _ => rfl

theorem writePrecomp : Statement .writePrecomp := fun _ => rfl

theorem diagnostics : Statement .diagnostics := fun _ => rfl

theorem density : Statement .density := fun _ => rfl

theorem checkDisk : Statement .checkDisk := fun _ => rfl

theorem checkWp : Statement .checkWp := fun _ => rfl

theorem features : Statement .features := fun _ => rfl

theorem abort : Statement .abort := fun _ => rfl

theorem rsp1Ok : Statement .rsp1Ok := fun _ => rfl

theorem rsp1Error : Statement .rsp1Error := fun _ => rfl

theorem rsp1Other (b : Byte) : Statement (.rsp1Other b) := fun _ => rfl

theorem rsptMoved : Statement .rsptMoved := fun _ => rfl

theorem rsptAlready : Statement .rsptAlready := fun _ => rfl

theorem rsptFail : Statement .rsptFail := fun _ => rfl

theorem rsptOther (b : Byte) : Statement (.rsptOther b) := fun _ => rfl

theorem rsp2NoDisk : Statement .rsp2NoDisk := fun _ => rfl

theorem rsp2Present : Statement .rsp2Present := fun _ => rfl

theorem rsp2B0Other (b : Byte) : Statement (.rsp2B0Other b) := fun _ => rfl

theorem rsp2Prot1 : Statement .rsp2Prot1 := fun _ => rfl

theorem rsp2ProtHash : Statement .rsp2ProtHash := fun _ => rfl

theorem rsp2B1Other (b : Byte) : Statement (.rsp2B1Other b) := fun _ => rfl

theorem densHd : Statement .densHd := fun _ => rfl

theorem densDd : Statement .densDd := fun _ => rfl

theorem densOther (b : Byte) : Statement (.densOther b) := fun _ => rfl

theorem rspwClean : Statement .rspwClean := fun _ => rfl

theorem rspwTimeout : Statement .rspwTimeout := fun _ => rfl

theorem rspwFraming : Statement .rspwFraming := fun _ => rfl

theorem rspwOverrun : Statement .rspwOverrun := fun _ => rfl

theorem rspwOther (b : Byte) : Statement (.rspwOther b) := fun _ => rfl

theorem abortEcho : Statement .abortEcho := fun _ => rfl

theorem versionReply (major : BitVec 4) (dot : Bool) (minor : BitVec 4) :
    Statement (.versionReply major dot minor) := fun _ => rfl

theorem streamData (b : Byte) : Statement (.streamData b) := fun _ => rfl

theorem syncIam : Statement .syncIam := fun _ => rfl

theorem syncIdam : Statement .syncIdam := fun _ => rfl

theorem syncDam : Statement .syncDam := fun _ => rfl

end Sys2Proof.Laws.EncodesInContext
end

