-- ==== Sys2Proof/Laws/Step.lean ====
section
/-! SUPPORT. What one step can do, said once: it keeps a property if what it finds keeps it, every
instruction keeps it, and the scan's cursor keeps it. -/

namespace Sys2Proof.Machine

variable {P : State → Prop}

/-- What a step finds keeps `P`: the state an instruction runs in has it, and an answer without an
instruction ensures it. -/
def Fetch.Keeps (P : State → Prop) : Fetch → Prop
  | .run _ s => P s
  | .moved a => a.Ensures P

/-- A property of the machine that every part of a step keeps is kept by the step. -/
theorem step_ensures {s : State} (fetched : s.tick.fetch.Keeps P)
    (executed : ∀ i t, P t → Answer.Ensures (exec i t) P)
    (settled : ∀ t, P t → P (t.setDec t.dec.next)) : Answer.Ensures (step s) P := by
  unfold step
  cases h : s.tick.fetch with
  | moved a => rw [h] at fetched; exact fetched
  | run i u =>
    rw [h] at fetched
    simp only [runFetched, State.settle]
    split
    · rw [Answer.onNext_ensures]
      exact fun t ht => settled t (executed i u fetched t ht)
    · exact executed i u fetched

/-- A decoding keeps `P` if the state it would run in has it and the other answer ensures it. -/
theorem orElse_keeps {d : Decoded} {s : State} {a : Answer} (run : P s) (otherwise : a.Ensures P) :
    (orElse d s a).Keeps P := by
  cases d with
  | instr i => exact run
  | reject r => exact otherwise

/-- A step outside the scan that finds an instruction is that instruction. -/
theorem step_eq_exec {s t : State} {i : Instr} (h : s.tick.fetch = .run i t) (hp : t.phase ≠ .scan) :
    step s = exec i t := by
  simp [step, h, runFetched, State.settle, hp]

/-- Both bytes of check disk: everything they can do (42_commands.md R182). -/
theorem State.finishCheckDisk_cases (s : State) (f : Presence) (prot : Bool) :
    (f = .other ∧ s.finishCheckDisk f prot = s.ret .statusError)
    ∨ ∃ x c, f = (if x then .present else .absent) ∧ c = presenceCode x
        ∧ s.finishCheckDisk f prot = (s.setDiskPresent x).goto (.protect prot c) := by
  cases f with
  | other => exact .inl ⟨rfl, rfl⟩
  | present => exact .inr ⟨true, _, rfl, rfl, rfl⟩
  | absent => exact .inr ⟨false, _, rfl, rfl, rfl⟩

end Sys2Proof.Machine
end

