-- ==== Sys2Proof/Tests/Slice0.lean ====
section
/-! SUPPORT. Tests: the refusals of WellFormed, words spelled out from the spec's tables, one step of
each instruction against the vectors of 95_test_vectors.md, and for every statement with hypotheses a
state and operands that meet them. -/

namespace Sys2Proof.Tests

open Sys2Proof Sys2Proof.Machine

/-! ### Helpers -/

/-- The parameter values 95_test_vectors.md assumes; those it leaves open are arbitrary. -/
def par : Params :=
  { sync := Config.ibmSync, synthErr := 0xF0, serveErrLimit := 4, capDD := 1, baud := 1000
    cmdReset := 0x52, cmdEnableWrite := 0x7E, minMajor := 1, minMinor := 0, fcmDot := true, fddNum := 2
    syncRd := { base := 5, perByte := 1 }, syncWr := { base := 6, perByte := 1 }
    normalRd := { base := 7, perByte := 2 }, normalWr := { base := 8, perByte := 2 }
    sym0 := [true], sym1 := [false, true], sym2 := [false, false, true]
    sym3 := [false, false, false, true] }

/-- A machine with these parameters, an open session, an engine state and a place in the pseudocode. -/
def at' (st : EngineState) (p : Phase) : State :=
  { State.reset with
    par := par, st := st, phase := p
    tp := { State.reset.tp with
      isOpen := true, rdTimeout := { base := 7, perByte := 2 }, wrTimeout := { base := 8, perByte := 2 } } }

/-- The same with bytes waiting in the receive FIFO. -/
def heard (st : EngineState) (p : Phase) (bs : List Byte) : State :=
  { at' st p with tp := { (at' st p).tp with rx := bs } }

/-- The same with what a read of a response byte returned. -/
def judged (st : EngineState) (a : Await) (bs : List Byte) : State := at' st (.judge a bs)

/-- A field of the next state, if there is one. -/
def look {α : Type} (a : Answer) (f : State → α) : Option α :=
  match a with
  | .next s => some (f s)
  | .fault _ => none
  | .refused _ => none

/-- The refusal an answer is, if it is one. -/
def refusal (a : Answer) : Option Refusal :=
  match a with
  | .refused r => some r
  | .next _ => none
  | .fault _ => none

/-- What a command leaves: the bytes in `tp.tx`, the place. -/
def sentAs (s : State) : List Byte × Phase := (s.tp.tx, s.phase)

/-- The worker asks for this operation in `Ready`. -/
def asking (o : Op) : State := { at' .ready .idle with ops := [o] }

/-! ### WellFormed refuses ill-formed terms (30_encoding.md R95, R96, R97) -/

theorem test_track_84_is_ill_formed : (Instr.gotoTrack 84).wf = false := by decide
theorem test_track_83_is_well_formed : (Instr.gotoTrack 83).wf = true := by decide
theorem test_rsp1_other_names_no_one : (Instr.rsp1Other 0x31).wf = false := by decide
theorem test_rsp1_other_names_no_zero : (Instr.rsp1Other 0x30).wf = false := by decide
theorem test_rspt_other_names_no_one : (Instr.rsptOther 0x31).wf = false := by decide
theorem test_rspt_other_names_no_two : (Instr.rsptOther 0x32).wf = false := by decide
theorem test_rspt_other_names_no_zero : (Instr.rsptOther 0x30).wf = false := by decide
theorem test_presence_other_names_no_hash : (Instr.rsp2B0Other 0x23).wf = false := by decide
theorem test_presence_other_names_no_one : (Instr.rsp2B0Other 0x31).wf = false := by decide
theorem test_protect_other_names_no_hash : (Instr.rsp2B1Other 0x23).wf = false := by decide
theorem test_protect_other_names_no_one : (Instr.rsp2B1Other 0x31).wf = false := by decide
theorem test_density_other_names_no_h : (Instr.densOther 0x48).wf = false := by decide
theorem test_density_other_names_no_d : (Instr.densOther 0x44).wf = false := by decide
theorem test_write_other_names_no_one : (Instr.rspwOther 0x31).wf = false := by decide
theorem test_write_other_names_no_x : (Instr.rspwOther 0x58).wf = false := by decide
theorem test_write_other_names_no_y : (Instr.rspwOther 0x59).wf = false := by decide
theorem test_write_other_names_no_z : (Instr.rspwOther 0x5A).wf = false := by decide
theorem test_major_zero_is_ill_formed : (Instr.versionReply 0 false 5).wf = false := by decide
theorem test_major_ten_is_ill_formed : (Instr.versionReply 10 false 5).wf = false := by decide
theorem test_minor_ten_is_ill_formed : (Instr.versionReply 9 true 10).wf = false := by decide
theorem test_minor_nine_is_well_formed : (Instr.versionReply 1 true 9).wf = true := by decide

/-! ### Every row's word, written out (30_encoding.md R92, R95 to R97, R104; 43_streaming_read.md R206) -/

/-- The command alphabet, bit by bit (30_encoding.md R92). -/
theorem test_commands_decode :
    [(0b00111111, Instr.version), (0b00101110, .rewind), (0b01011011, .head0), (0b01011101, .head1),
      (0b00111100, .readTrack), (0b01111011, .readStream), (0b00101011, .enable),
      (0b00101101, .disable), (0b00111110, .writeTrack), (0b01111101, .writePrecomp),
      (0b00100110, .diagnostics), (0b01010100, .density), (0b01011110, .checkDisk),
      (0b00100100, .checkWp), (0b01000000, .features), (0b01111000, .abort)].all
      (fun (w : Byte × Instr) => decode Config.ibmSync .command [w.1] == .instr w.2) = true := by decide

/-- Track 7 is 23 30 37 and track 83 is 23 38 33 (95_test_vectors.md V7.4, V7.5). -/
theorem test_track_decodes :
    decode Config.ibmSync .command [0b00100011, 0b00110000, 0b00110111] = .instr (.gotoTrack 7)
      ∧ decode Config.ibmSync .command [0b00100011, 0b00111000, 0b00110011] = .instr (.gotoTrack 83) := by
  decide

/-- 84 and a letter are no track (30_encoding.md R96). -/
theorem test_track_rejects :
    decode Config.ibmSync .command [0x23, 0x38, 0x34] = .reject .trackRange
      ∧ decode Config.ibmSync .command [0x23, 0x41, 0x34] = .reject .trackDigits
      ∧ decode Config.ibmSync .command [0x23] = .reject .length
      ∧ decode Config.ibmSync .command [0x52] = .reject (.notACommand 0x52) := by
  decide

/-- The response tables, bit by bit (30_encoding.md R95). -/
theorem test_responses_decode :
    [(Ctx.rsp1, 0b00110001, Instr.rsp1Ok), (.rsp1, 0b00110000, .rsp1Error), (.rsp1, 0b00110010, .rsp1Other 0x32),
      (.rspT, 0b00110001, .rsptMoved), (.rspT, 0b00110010, .rsptAlready), (.rspT, 0b00110000, .rsptFail),
      (.rspT, 0b00110011, .rsptOther 0x33),
      (.presence, 0b00100011, .rsp2NoDisk), (.presence, 0b00110001, .rsp2Present),
      (.presence, 0b01000001, .rsp2B0Other 0x41),
      (.protect, 0b00110001, .rsp2Prot1), (.protect, 0b00100011, .rsp2ProtHash),
      (.protect, 0b00110000, .rsp2B1Other 0x30),
      (.density, 0b01001000, .densHd), (.density, 0b01000100, .densDd), (.density, 0b01010001, .densOther 0x51),
      (.rspW, 0b00110001, .rspwClean), (.rspW, 0b01011000, .rspwTimeout), (.rspW, 0b01011001, .rspwFraming),
      (.rspW, 0b01011010, .rspwOverrun), (.rspW, 0b00000000, .rspwOther 0),
      (.stream, 0b01101101, .streamData 0x6D)].all
      (fun (w : Ctx × Byte × Instr) => decode Config.ibmSync w.1 [w.2.1] == .instr w.2.2) = true := by
  decide

/-- The echo and "1V9,5" (95_test_vectors.md V6.1, V8.1). -/
theorem test_windows_decode :
    decode Config.ibmSync .echo [0b01011000, 0b01011001, 0b01011010, 0b01111000, 0b00110001]
        = .instr .abortEcho
      ∧ decode Config.ibmSync .version [0b00110001, 0b01010110, 0b00111001, 0b00101100, 0b00110101]
        = .instr (.versionReply 9 false 5) := by
  decide

/-- The four five-byte non-matches of 95_test_vectors.md V6.4, and its four bytes alone. -/
theorem test_version_non_matches :
    [[0x31, 0x56, 0x30, 0x2C, 0x35], [0x31, 0x56, 0x39, 0x3B, 0x35], [0x31, 0x56, 0x39, 0x2C, 0x41],
      [0x31, 0x76, 0x39, 0x2C, 0x35], [0x56, 0x39, 0x2C, 0x35]].all
      (fun w => decode Config.ibmSync .version w == .reject .notVersion) = true := by decide

/-- The three constants of 30_encoding.md R104, byte by byte. -/
theorem test_sync_decodes :
    decode Config.ibmSync .scan [0x52, 0x24, 0x52, 0x24, 0x52, 0x24, 0x55, 0x52] = .instr .syncIam
      ∧ decode Config.ibmSync .scan [0x44, 0x89, 0x44, 0x89, 0x44, 0x89, 0x55, 0x54] = .instr .syncIdam
      ∧ decode Config.ibmSync .scan [0x44, 0x89, 0x44, 0x89, 0x44, 0x89, 0x55, 0x45] = .instr .syncDam := by
  decide

/-! ### The opcode table's words, placed after reset -/

theorem test_table_words :
    decodeTableWord 8 0x5B = some .head0 ∧ decodeTableWord 8 0x23 = some (.gotoTrack 0)
      ∧ decodeTableWord 8 0x31 = some .rsp1Ok ∧ decodeTableWord 8 0x32 = some .rsptAlready
      ∧ decodeTableWord 8 0x5A = some .rspwOverrun ∧ decodeTableWord 40 0x58595A7831 = some .abortEcho
      ∧ decodeTableWord 40 0x3156312E30 = some (.versionReply 1 true 0)
      ∧ decodeTableWord 64 0x4489448944895545 = some .syncDam := by
  decide

/-- Each placed command of those words completes as the first step after reset. -/
theorem test_placed_commands_run :
    [0x3F, 0x2E, 0x23, 0x5B, 0x5D, 0x3C, 0x7B, 0x2B, 0x2D, 0x3E, 0x7D, 0x26, 0x54, 0x5E, 0x24, 0x40,
      0x78].all (fun w => Answer.isNext (step (State.reset.withFetchWord 8 w))) = true := by decide

/-- Each placed response completes as the first step after reset. -/
theorem test_placed_responses_run :
    [0x31, 0x30, 0x32, 0x48, 0x44, 0x58, 0x59, 0x5A, 0x00].all
      (fun w => Answer.isNext (step (State.reset.withFetchWord 8 w))) = true := by decide

/-- A placed echo ends a read, a placed version reply is recorded. -/
theorem test_placed_windows_run :
    look (step (State.reset.withFetchWord 40 0x58595A7831)) (·.phase) = some (.stream .leaveFlag)
      ∧ look (step (State.reset.withFetchWord 40 0x3156392C35)) (·.fw.major) = some 9 := by
  decide

/-- A placed DAM is matched: the sector is synthesised (45_mfm_decoder.md R252) and the cursor advances. -/
theorem test_placed_dam_runs :
    look (step (State.reset.withFetchWord 64 0x4489448944895545)) (fun t => (t.dec.t, t.dec.lastSector))
        = some (64, 1)
      ∧ look (step (State.reset.withFetchWord 64 0x4489448944895554)) (·.dec.hdrErr) = some 3
      ∧ look (step (State.reset.withFetchWord 64 0x5224522452245552)) (·.dec.prevEnd) = some none := by
  decide +kernel

/-! ### Commands: the bytes written and the place after (95_test_vectors.md V7, 42_commands.md) -/

theorem test_rewind : look (step (at' .ready (.issue [0x2E]))) sentAs
    = some ([0x2E], .await .rsp1) := by decide
theorem test_goto_track_7 : look (step (at' .ready (.issue [0x23, 0x30, 0x37]))) sentAs
    = some ([0x23, 0x30, 0x37], .await .rspT) := by decide
theorem test_goto_track_84 : look (exec (.gotoTrack 84) (at' .ready (.issue [0x23, 0x38, 0x34]))) sentAs
    = some ([], .ret .trackRangeError) := by decide
theorem test_head0 : look (step (at' .ready (.issue [0x5B]))) sentAs
    = some ([0x5B], .await .rsp1) := by decide
theorem test_head1 : look (step (at' .ready (.issue [0x5D]))) sentAs
    = some ([0x5D], .await .rsp1) := by decide
theorem test_enable : look (step (at' .ready (.issue [0x2B]))) sentAs
    = some ([0x2B], .await .rsp1) := by decide
theorem test_enable_in_write_enabled :
    refusal (step (at' .writeEnabled (.issue [0x2B]))) = some .wrongState := by decide
theorem test_disable : look (step (at' .readEnabled (.issue [0x2D]))) sentAs
    = some ([0x2D], .await .rsp1) := by decide
theorem test_diagnostics : look (step (at' .ready (.issue [0x26]))) sentAs
    = some ([0x26], .await .rsp1) := by decide
theorem test_density : look (step (at' .ready (.issue [0x54]))) sentAs
    = some ([0x54], .await .rsp1) := by decide
theorem test_check_disk : look (step (at' .ready (.issue [0x5E]))) sentAs
    = some ([0x5E], .await .diskPresence) := by decide
theorem test_check_wp : look (step (at' .ready (.issue [0x24]))) sentAs
    = some ([0x24], .await .wpByte) := by decide
theorem test_read_track : look (step (at' .readEnabled (.issue [0x3C]))) sentAs
    = some ([0x3C], .block) := by decide
theorem test_read_stream : look (step (at' .readEnabled (.issue [0x7B]))) sentAs
    = some ([0x7B], .await .rsp1) := by decide
theorem test_write_track : look (step (at' .writeEnabled (.issue [0x3E]))) sentAs
    = some ([0x3E], .await .rsp1) := by decide
theorem test_write_precomp : look (step (at' .writeEnabled (.issue [0x7D]))) sentAs
    = some ([0x7D], .await .rsp1) := by decide
/-- Write protected: no command is written (44_track_write.md R220). -/
theorem test_write_precomp_protected :
    look (exec .writePrecomp { at' .writeEnabled (.issue [0x7D]) with writeProtected := true }) sentAs
      = some ([], .ret .writeProtected) := by decide
theorem test_features : look (step (at' .syncing (.issue [0x40]))) sentAs
    = some ([0x40], .await .rsp1) := by decide
/-- A kick resets `nEmpty` after its write (95_test_vectors.md V6.5). -/
theorem test_kick :
    look (steps 2 { at' .syncing (.issue [0x3F]) with hs := { State.reset.hs with nEmpty := 7 } })
      (fun t => (sentAs t, t.hs.nEmpty)) = some (([0x3F], .hs .top), 0) := by decide
theorem test_abort :
    look (steps 2 (at' .streaming (.issue [0x78]))) (fun t => (sentAs t, t.str.abortSent))
      = some (([0x78], .stream .bytes), true) := by decide
/-- A millisecond passes before a command is written, and before a byte given by a call (R170, R189). -/
theorem test_pause : look (step (at' .ready (.pause [0x2E]))) (fun t => (t.now, t.tp.tx, t.phase))
      = some (1, [], .mark [0x2E])
    ∧ look (step (at' .ready (.pauseRaw 0x7E none))) (fun t => (t.now, t.tp.tx, t.phase))
      = some (1, [], .markRaw 0x7E none) := by decide
/-- Then `lastCommand` is set, and the byte is written after it (R170). -/
theorem test_mark : look (step (at' .ready (.mark [0x23, 0x30, 0x37]))) (fun t => (t.lastCommand, t.phase))
      = some (0x23, .issue [0x23, 0x30, 0x37])
    ∧ look (step (at' .ready (.markRaw 0x7E none))) (fun t => (t.lastCommand, t.phase))
      = some (0x7E, .raw 0x7E none) := by decide
/-- A command in `Closed` is refused (95_test_vectors.md V7.30). -/
theorem test_command_in_closed :
    refusal (step (at' .closed (.issue [0x2E]))) = some .wrongState := by decide

/-! ### Responses (95_test_vectors.md V7) -/

theorem test_rsp1_ok : look (step (judged .ready .rsp1 [0x31])) (·.lastError) = some .ok := by decide
theorem test_rsp1_error : look (step (judged .ready .rsp1 [0x30])) (·.lastError)
    = some .error := by decide
/-- '2' answers only the track command (V7.3). -/
theorem test_rsp1_other : look (step (judged .ready .rsp1 [0x32])) (·.lastError)
    = some .statusError := by decide
theorem test_no_response : look (step (judged .ready .rsp1 [])) (·.lastError)
    = some .readResponseFailed := by decide
theorem test_rspt_moved : look (step (judged .ready .rspT [0x31])) (·.lastError)
    = some .ok := by decide
theorem test_rspt_already : look (step (judged .ready .rspT [0x32])) (·.lastError)
    = some .ok := by decide
theorem test_rspt_fail : look (step (judged .ready .rspT [0x30])) (·.lastError)
    = some .selectTrackError := by decide
theorem test_rspt_other : look (step (judged .ready .rspT [0x33])) (·.lastError)
    = some .statusError := by decide

/-- The two bytes of check disk, read and judged: code, presence, protection. -/
def diskAfter (bs : List Byte) : Option (Code × Bool × Bool) :=
  look (steps 6 (heard .ready (.await .diskPresence) bs))
    fun t => (t.lastError, t.diskPresent, t.writeProtected)

/-- V7.16 to V7.21. -/
theorem test_check_disk_bytes :
    diskAfter [0x31, 0x23] = some (.ok, true, true) ∧ diskAfter [0x31, 0x30] = some (.ok, true, false)
      ∧ diskAfter [0x23, 0x30] = some (.noDiskInDrive, false, false)
      ∧ diskAfter [0x23, 0x31] = some (.noDiskInDrive, false, true)
      ∧ diskAfter [0x41, 0x31] = some (.statusError, false, false)
      ∧ diskAfter [0x31] = some (.readResponseFailed, false, false) := by decide
/-- V7.23, V7.24. -/
theorem test_check_wp_bytes :
    look (step (judged .ready .wpByte [0x23])) (fun t => (t.phase, t.writeProtected))
        = some (.exit .ok, true)
      ∧ look (step (judged .ready .wpByte [0x30])) (fun t => (t.phase, t.writeProtected))
        = some (.exit .ok, false) := by decide
/-- V7.25, V7.26, V7.28. -/
theorem test_density_bytes :
    look (step (judged .ready .density [0x48])) (fun t => (t.phase, t.isHDMode))
        = some (.exit .ok, true)
      ∧ look (step { judged .ready .density [0x44] with isHDMode := true })
        (fun t => (t.phase, t.isHDMode)) = some (.exit .ok, false)
      ∧ look (step (judged .ready .density [0x51])) (fun t => (t.phase, t.isHDMode))
        = some (.ret .statusError, false) := by decide
/-- 44_track_write.md R226. -/
theorem test_write_status_bytes :
    [(0x31, Code.ok), (0x58, .writeTimeout), (0x59, .framingError), (0x5A, .serialOverrun),
      (0x30, .statusError)].all (fun (w : Byte × Code) =>
        look (step (judged .writeEnabled .rspW [w.1])) (·.lastError) == some w.2) = true := by
  decide

/-! ### The handshake and the streamed read (95_test_vectors.md V6, V8) -/

/-- "1V9," is in the window, '5' arrives (V6.1). -/
theorem test_version_reply :
    look (steps 5 { at' .syncing (.hs (.byte [0x35])) with
        hs := { State.reset.hs with vwin := { b0 := 0, b1 := 0x31, b2 := 0x56, b3 := 0x39, b4 := 0x2C } } })
      (fun t => (t.fw.major, t.fw.minor, t.fw.fullControlMod, t.phase))
      = some (9, 5, false, .hs .purge1) := by decide

/-- A stream with a capture of two bytes and one chunk. -/
def streaming (chunk : List Byte) : State :=
  { at' .streaming (.stream .bytes) with
    cap := { buf := [], size := 2, bitLength := 0 }, str := { Stream.initial with chunk := chunk } }

/-- 6D gives the eleven bits 48 A0 (V8.0, V8.1). -/
theorem test_stream_data :
    look (steps 24 (streaming [0x6D])) (fun t => (t.cap.buf, t.str.wcur, t.phase))
      = some ([(0, 0x48), (1, 0xA0)], { pos := 1, bit := 3 }, .stream .bytes) := by decide
/-- 5B then fills the buffer in its middle (V8.1). -/
theorem test_stream_data_fills :
    look (steps 36 (streaming [0x6D, 0x5B, 0x77])) (fun t => (t.cap.buf, t.str.wcur, t.phase))
      = some ([(0, 0x48), (1, 0xAA)], { pos := 2, bit := 0 }, .mark [0x78]) := by decide
/-- The echo's last byte ends the read with sixteen bits (V8.1). -/
theorem test_abort_echo :
    look (steps 6 { streaming [0x31, 0x00] with
        str := { Stream.initial with
          abortSent := true, wcur := { pos := 2, bit := 0 }, chunk := [0x31, 0x00]
          awin := { b0 := 0x77, b1 := 0x58, b2 := 0x59, b3 := 0x5A, b4 := 0x78 } } })
      (fun t => (t.st, t.cap.bitLength, t.str.chunk, t.phase))
      = some (.readEnabled, 16, [0x00], .ret .ok) := by decide

/-! ### The decoder (95_test_vectors.md V1 to V4) -/

/-- V1.4. -/
theorem test_bits :
    writeBits 2 [true, false, true, true] [(0, 0xA5), (1, 0x3C)] { pos := 0, bit := 6 }
        = ([(0, 0xA6), (1, 0xFC)], { pos := 1, bit := 2 })
      ∧ readBits 2 4 [(0, 0xA6), (1, 0xFC)] { pos := 0, bit := 6 }
        = some ([true, false, true, true], { pos := 1, bit := 2 }) := by decide
/-- The bit operations as calls: V1.4's last bit, bit 1 of 3C, and a cursor past the buffer
(45_mfm_decoder.md R236 to R238). -/
theorem test_bit_calls :
    look (step (asking (.writeBit [0xA5, 0x3C] { pos := 0, bit := 6 } true))) (·.out)
        = some (.buffer [0xA7, 0x3C] { pos := 0, bit := 7 })
      ∧ look (step (asking (.readBit [0xA5, 0x3C] { pos := 1, bit := 1 }))) (·.out)
        = some (.bit false { pos := 1, bit := 2 })
      ∧ refusal (step (asking (.readBit [0xA5, 0x3C] { pos := 2, bit := 0 }))) = some .pastBuffer := by
  decide
/-- V2. -/
theorem test_crc : crc16 [0x01] = 0xF1D1 ∧ crc16 [0x80] = 0x7078
    ∧ crc16 [0xA1, 0xA1, 0xA1, 0xFE, 0x00, 0x00, 0x01, 0x00] = 0xEA2D := by decide +kernel

/-- Bytes as sixteen MFM cells each, whose clock bits are all 0. -/
def mfm (bs : List Byte) : List Byte :=
  bs.flatMap fun b =>
    [BitVec.ofNat 8 (if b.getMsbD 0 then 0x40 else 0) ||| (if b.getMsbD 1 then 0x10 else 0)
        ||| (if b.getMsbD 2 then 4 else 0) ||| (if b.getMsbD 3 then 1 else 0),
      BitVec.ofNat 8 (if b.getMsbD 4 then 0x40 else 0) ||| (if b.getMsbD 5 then 0x10 else 0)
        ||| (if b.getMsbD 6 then 4 else 0) ||| (if b.getMsbD 7 then 1 else 0)]

/-- The scan over a record of these bytes, at the window that starts at bit 0, for cylinder 3 and head 1. -/
def scanning (bs : List Byte) : State :=
  { at' .ready .scan with
    cap := { buf := Memory.ofBytes 0 (mfm bs), size := 2 * bs.length, bitLength := 16 * bs.length }
    dec := { Decoder.initial false 3 1 0 with t := 63 } }

/-- V3.1 to V3.5. -/
theorem test_extract :
    ({ buf := [(0, 0x44), (1, 0x89), (2, 0x55), (3, 0x54), (4, 0x92), (5, 0x54)]
       size := 6, bitLength := 48 } : Capture).extract 0 3 = [0xA1, 0xFE, 0x4E] := by decide
/-- A call of `Extract`, on V3.1's capture and on an empty one, whose bytes are free (notes/assumptions/38). -/
theorem test_extract_call :
    look (step { asking (.extract 0 1) with cap := { buf := [(0, 0x44), (1, 0x89)], size := 2, bitLength := 16 } })
        (·.out) = some (.bytes [0xA1])
      ∧ ∃ bs, bs.length = 3 ∧ look (step (asking (.extract 5 3))) (·.out) = some (.bytes bs) :=
  ⟨by decide, oddBytes (asking (.extract 5 3)).cap.askedBit 5 3, rfl, rfl⟩

/-- A valid header of cylinder 3, head 1, sector 5 with the CRC of the rule's vector (V4.20). -/
theorem test_id_mark :
    look (exec .syncIdam (scanning [0xA1, 0xA1, 0xA1, 0xFE, 3, 1, 5, 2, 0xAA, 0x47]))
      (fun t => (t.dec.hdr, t.dec.hdrErr, t.dec.lastSector, t.dec.headerFound))
      = some ({ c := 3, h := 1, r := 5, n := 2 }, 0, 5, true) := by decide +kernel
/-- Sector 0 with a valid CRC: clamped, one error (V4.23). -/
theorem test_id_mark_sector_zero :
    look (exec .syncIdam (scanning [0xA1, 0xA1, 0xA1, 0xFE, 3, 1, 0, 2, 0x55, 0xB2]))
      (fun t => (t.dec.hdr.r, t.dec.hdrErr)) = some (1, 1) := by decide +kernel
theorem test_index_mark :
    look (exec .syncIam { scanning [0] with dec := { (scanning [0]).dec with prevEnd := some 3 } })
      (·.dec.prevEnd) = some none := by decide
/-- Size code 8: the record is dropped (45_mfm_decoder.md R253, V4.18). -/
theorem test_data_mark_drops_size_8 :
    look (exec .syncDam { scanning [0] with
        dec := { (scanning [0]).dec with
          headerFound := true, prevEnd := some 3, hdr := { c := 3, h := 1, r := 5, n := 8 } } })
      (fun t => (t.dec.trk, t.dec.prevEnd, t.dec.headerFound)) = some ([], none, false) := by decide
/-- A DAM under a header of sector 2 and size code 0: stored under key 1, the record ends 134 bytes on
(45_mfm_decoder.md R255, R256). -/
theorem test_data_mark_stores :
    look (exec .syncDam { scanning [0] with
        dec := { (scanning [0]).dec with headerFound := true, hdr := { c := 3, h := 1, r := 2, n := 0 } } })
      (fun t => (t.dec.trk.map (·.1), t.dec.prevEnd)) = some ([1], some 2144) := by decide

/-! ### The hypotheses of the statements are met (Certificates/Slice0/Obligations.lean) -/

/-- With the write limit of this step's move. -/
def limited (s : State) (n : Nat) : State := { s with cur := { s.cur with accept := some n } }

/-- DecodeOfEncodeIsTheInstruction, at both ends of the operands' ranges. -/
theorem witness_decode_of_encode :
    Config.ibmSync.iam ≠ Config.ibmSync.idam ∧ Config.ibmSync.iam ≠ Config.ibmSync.dam
      ∧ Config.ibmSync.idam ≠ Config.ibmSync.dam ∧ (Instr.gotoTrack 0).wf = true
      ∧ (Instr.gotoTrack 83).wf = true ∧ (Instr.versionReply 1 false 0).wf = true
      ∧ (Instr.versionReply 9 true 9).wf = true ∧ (Instr.densOther 0xFF).wf = true := by decide

/-- EncodeOfDecodeIsTheBytes. -/
theorem witness_encode_of_decode :
    decode Config.ibmSync .command [0x23, 0x38, 0x33] = .instr (.gotoTrack 83)
      ∧ decode Config.ibmSync .version [0x31, 0x56, 0x39, 0x2E, 0x39] = .instr (.versionReply 9 true 9) := by
  decide

/-- StepRunsTheDecodedInstruction: a command. -/
theorem witness_step_runs_command :
    (at' .ready (.issue [0x2E])).phase = .issue [0x2E]
      ∧ decode (at' .ready (.issue [0x2E])).par.sync .command [0x2E] = .instr .rewind := by decide

/-- StepRunsTheDecodedInstruction: a response. -/
theorem witness_step_runs_response :
    (heard .ready (.await .rspT) [0x32, 0x07]).phase = .await .rspT
      ∧ (heard .ready (.await .rspT) [0x32, 0x07]).tp.isOpen = true
      ∧ (judged .ready .rspT [0x32]).phase = .judge .rspT (0x32 :: [])
      ∧ decode (judged .ready .rspT [0x32]).par.sync Await.rspT.ctx [0x32]
        = .instr .rsptAlready := by decide

/-- The sync loop with "1V9,5" in the window. -/
def nearVersion : State :=
  { at' .syncing (.hs .look) with
    hs := { State.reset.hs with vwin := { b0 := 0x31, b1 := 0x56, b2 := 0x39, b3 := 0x2C, b4 := 0x35 } } }

/-- StepRunsTheDecodedInstruction: the version reply. -/
theorem witness_step_runs_version :
    (heard .syncing (.hs .poll) [0x35]).phase = .hs .poll
      ∧ (heard .syncing (.hs .poll) [0x35]).tp.isOpen = true
      ∧ (at' .syncing (.hs (.byte [0x35]))).phase = .hs (.byte (0x35 :: []))
      ∧ (at' .syncing (.hs (.shift 0x35))).phase = .hs (.shift 0x35) ∧ nearVersion.phase = .hs .look
      ∧ decode nearVersion.par.sync .version nearVersion.hs.vwin.bytes
        = .instr (.versionReply 9 false 5) := by decide

/-- A stream whose engine looks at this byte. -/
def streamingAt (b : Byte) : State := { streaming [] with phase := .stream (.byte b) }

/-- StepRunsTheDecodedInstruction: a stream byte. -/
theorem witness_step_runs_stream :
    (streaming [0x6D]).phase = .stream .bytes ∧ (streaming [0x6D]).str.chunk = 0x6D :: []
      ∧ (streamingAt 0x6D).phase = .stream (.byte 0x6D) ∧ (streamingAt 0x6D).str.abortSent = false
      ∧ decode (streamingAt 0x6D).par.sync .stream [0x6D] = .instr (.streamData 0x6D) := by decide

/-- After the abort byte, with "XYZx" in the window and this chunk. -/
def nearEcho (chunk : List Byte) : State :=
  { streaming chunk with
    str := { (streaming chunk).str with
      abortSent := true, awin := { b0 := 0x77, b1 := 0x58, b2 := 0x59, b3 := 0x5A, b4 := 0x78 } } }

/-- The echo window is looked at, with these five bytes in it. -/
def echoed (w : Window) : State :=
  { nearEcho [] with phase := .stream .echo, str := { (nearEcho []).str with awin := w } }

/-- The window that holds the echo. -/
def echoWindow : Window := { b0 := 0x58, b1 := 0x59, b2 := 0x5A, b3 := 0x78, b4 := 0x31 }

/-- StepRunsTheDecodedInstruction: the echo. -/
theorem witness_step_runs_echo :
    ({ nearEcho [] with phase := .stream (.byte 0x31) }).phase = .stream (.byte 0x31)
      ∧ (nearEcho []).str.abortSent = true ∧ (echoed echoWindow).phase = .stream .echo
      ∧ decode (echoed echoWindow).par.sync .echo (echoed echoWindow).str.awin.bytes
        = .instr .abortEcho := by decide

/-- A scan at its first window, over these eight bytes, with the 63 bits before the last in the register. -/
def firstWindow (bs : List Byte) : State :=
  { at' .ready .scan with
    cap := { buf := Memory.ofBytes 0 bs, size := 8, bitLength := 64 }
    dec := { Decoder.initial false 0 0 0 with t := 63, sr := BitVec.ofNat 64 (joinBytes bs / 2) } }

/-- The ID address mark's eight bytes (95_test_vectors.md V4.19). -/
def idamBytes : List Byte := [0x44, 0x89, 0x44, 0x89, 0x44, 0x89, 0x55, 0x54]

/-- StepRunsTheDecodedInstruction: a sync constant. -/
theorem witness_step_runs_sync :
    (firstWindow idamBytes).phase = .scan
      ∧ scanOver (firstWindow idamBytes).dec (firstWindow idamBytes).cap = false
      ∧ 63 ≤ (firstWindow idamBytes).dec.t
      ∧ decodeWindow (firstWindow idamBytes).par.sync
          (shiftIn (firstWindow idamBytes).dec.sr
            ((firstWindow idamBytes).cap.capBit (firstWindow idamBytes).dec.t)) = .instr .syncIdam := by
  decide

/-- BytesOutsideTheTablesActAsTheTablesSay: bytes that are no command. -/
theorem witness_bytes_outside_command :
    (at' .ready (.issue [0x52])).phase = .issue [0x52]
      ∧ ∀ i, decode (at' .ready (.issue [0x52])).par.sync .command [0x52] ≠ .instr i := by
  refine ⟨rfl, fun i => ?_⟩
  rw [show decode (at' .ready (.issue [0x52])).par.sync .command [0x52]
    = .reject (.notACommand 0x52) by decide]
  exact Decoded.noConfusion

/-- BytesOutsideTheTablesActAsTheTablesSay: a window that is no sync constant. -/
theorem witness_bytes_outside_window :
    (firstWindow [0]).phase = .scan ∧ scanOver (firstWindow [0]).dec (firstWindow [0]).cap = false
      ∧ 63 ≤ (firstWindow [0]).dec.t
      ∧ ∀ i, decodeWindow (firstWindow [0]).par.sync
          (shiftIn (firstWindow [0]).dec.sr ((firstWindow [0]).cap.capBit (firstWindow [0]).dec.t))
            ≠ .instr i := by
  refine ⟨rfl, rfl, by decide, fun i => ?_⟩
  rw [show decodeWindow (firstWindow [0]).par.sync
    (shiftIn (firstWindow [0]).dec.sr ((firstWindow [0]).cap.capBit (firstWindow [0]).dec.t))
    = .reject .notSync by decide]
  exact Decoded.noConfusion

/-- What the statements about commands suppose: the place, a session, the write accepted whole. -/
def Written (s : State) (w : List Byte) (n : Nat) : Prop :=
  s.phase = .issue w ∧ s.tp.isOpen = true ∧ s.accepted n = n

/-- CommandsCompleteInTheirStates, in each engine state it names. -/
theorem witness_commands_complete :
    Written (at' .ready (.issue [0x2E])) [0x2E] 1 ∧ (at' .ready (.issue [0x2E])).st.commands = true
      ∧ Written (at' .readEnabled (.issue [0x2B])) [0x2B] 1
      ∧ (at' .readEnabled (.issue [0x2B])).st.commands = true
      ∧ Written (at' .writeEnabled (.issue [0x5E])) [0x5E] 1
      ∧ (at' .writeEnabled (.issue [0x5E])).st.commands = true
      ∧ Written (at' .syncing (.issue [0x40])) [0x40] 1 ∧ (at' .syncing (.issue [0x40])).st = .syncing
      ∧ (at' .ready (.pause [0x2E])).phase = .pause [0x2E]
      ∧ (at' .ready (.mark [0x2E])).phase = .mark (0x2E :: []) := by
  unfold Written; decide

/-- GotoTrackCompletes, at 83 and at 84. -/
theorem witness_goto_track :
    Written (at' .ready (.issue [0x23, 0x38, 0x33])) [0x23, 0x38, 0x33] 3
      ∧ (at' .ready (.issue [0x23, 0x38, 0x33])).st.commands = true ∧ 83 ≤ 83 ∧ 83 < 84 := by
  unfold Written; decide

/-- TrackReadCommandsComplete. -/
theorem witness_track_read :
    Written (at' .readEnabled (.issue [0x7B])) [0x7B] 1
      ∧ (at' .readEnabled (.issue [0x7B])).st = .readEnabled
      ∧ (heard .readEnabled .block [0x55]).phase = .block
      ∧ (heard .readEnabled .block [0x55]).tp.isOpen = true
      ∧ (at' .readEnabled (.framing [0x55])).phase = .framing [0x55]
      ∧ (at' .readEnabled .framed).phase = .framed
      ∧ (at' .readEnabled (.length 7 .ok)).phase = .length 7 .ok := by
  unfold Written; decide

/-- A track write about to start, with this buffer of eight bits. -/
def writing (prot : Bool) (b : Byte) : State :=
  { at' .writeEnabled (.issue [0x7D]) with writeProtected := prot, wr := { mfm := [b], nbits := 8 } }

/-- The worker asks for a precompensated write of this many bits. -/
def calling (nbits : Nat) : State :=
  { asking (.writeTrack true [0xA1] nbits) with st := .writeEnabled }

/-- TrackWriteCommandsComplete: protected; legal runs of 2 and 5 cells; illegal runs of 1 and 6. -/
theorem witness_track_write :
    Written (writing true 0xA0) [0x7D] 1 ∧ (writing true 0xA0).st = .writeEnabled
      ∧ (writing true 0xA0).writeProtected = true
      ∧ Written (writing false 0xA1) [0x7D] 1 ∧ (writing false 0xA1).writeProtected = false
      ∧ (writing false 0xA1).wr.transitions.all legalRun = true
      ∧ (writing false 0xC0).wr.transitions.all legalRun = false
      ∧ (writing false 0x82).wr.transitions.all legalRun = false
      ∧ (calling 8).ops = .writeTrack true [0xA1] 8 :: [] ∧ (calling 8).st = .writeEnabled
      ∧ (calling 9).ops = .writeTrack true [0xA1] 9 :: [] ∧ (calling 8).writeProtected = false
      ∧ (asking (.writeTrack true [0xA1] 8)).st ≠ .writeEnabled := by
  unfold Written; decide

/-- UnansweredCommandsComplete. -/
theorem witness_unanswered :
    (limited (at' .syncing (.issue [0x3F])) 0).tp.isOpen = true
      ∧ (limited (at' .syncing (.issue [0x3F])) 0).st = .syncing
      ∧ (at' .streaming (.issue [0x78])).tp.isOpen = true
      ∧ (at' .streaming (.issue [0x78])).st = .streaming
      ∧ (at' .syncing (.hs .kicked)).phase = .hs .kicked
      ∧ (at' .streaming (.stream .aborted)).phase = .stream .aborted
      ∧ ({ at' .streaming (.stream .aborted) with frames := [.abortPoll] }).frames = .abortPoll :: []
      ∧ (at' .streaming (.stream .aborted)).frames.head? ≠ some .abortPoll
      ∧ (at' .streaming (.stream .user)).phase = .stream .user := by decide

/-- ShortCommandWriteReturnsSendFailed: no byte of one, two bytes of three; the return of a code. -/
theorem witness_short_write :
    (at' .ready (.exit .sendFailed)).phase = .exit .sendFailed
      ∧ (limited (at' .ready (.issue [0x2E])) 0).writes .rewind = true
      ∧ (limited (at' .ready (.issue [0x2E])) 0).accepted
          (encode (limited (at' .ready (.issue [0x2E])) 0).par.sync .rewind).length < 1
      ∧ (limited (at' .ready (.issue [0x23, 0x38, 0x33])) 2).writes (.gotoTrack 83) = true
      ∧ (limited (at' .ready (.issue [0x23, 0x38, 0x33])) 2).accepted
          (encode (limited (at' .ready (.issue [0x23, 0x38, 0x33])) 2).par.sync (.gotoTrack 83)).length
        = 2 := by decide

/-- CommandsOutsideTheirStatesAreRefused. -/
theorem witness_outside_states :
    (at' .closed (.issue [0x2E])).phase = .issue [0x2E] ∧ Instr.rewind.ctx = .command
      ∧ (at' .closed (.issue [0x2E])).allows .rewind = false
      ∧ (at' .writeEnabled (.issue [0x2B])).allows .enable = false := by decide

/-- RowsOutsideTheirExchangeAreRefused: each clause. -/
theorem witness_outside_exchange :
    Instr.rewind.ctx = .command ∧ (at' .ready (.await .rsp1)).phase.isIssue = false
      ∧ State.reset.tp.isOpen = false
      ∧ ({ at' .ready (.issue [0x2E]) with tp := State.reset.tp }).allows .rewind = true
      ∧ Instr.rsp1Ok.ctx = Await.rsp1.ctx ∧ (judged .ready .rspT [0x31]).phase = .judge .rspT [0x31]
      ∧ Await.rspT.ctx ≠ Instr.rsp1Ok.ctx
      ∧ Instr.abortEcho.ctx = .echo ∧ (at' .ready .idle).st ≠ .streaming
      ∧ (Instr.versionReply 9 false 5).ctx = .version ∧ (at' .ready .idle).st ≠ .syncing
      ∧ Instr.syncDam.ctx = .scan ∧ (at' .ready .idle).phase ≠ .scan := by decide

/-- OneByteResponsesReturnTheirCodes, DiskBytesUpdateTheCachedFlags, WriteStatusByteReturnsItsCode. -/
theorem witness_responses :
    (judged .ready .rsp1 [0x31]).phase = .judge .rsp1 [0x31]
      ∧ (judged .ready .rspT [0x32]).phase = .judge .rspT [0x32]
      ∧ (judged .ready .density [0x48]).phase = .judge .density [0x48]
      ∧ (judged .ready .diskPresence [0x31]).phase = .judge .diskPresence [0x31]
      ∧ (judged .ready (.diskProtect .other) [0x31]).phase = .judge (.diskProtect .other) [0x31]
      ∧ (judged .ready (.diskProtect .present) [0x31]).phase = .judge (.diskProtect .present) [0x31]
      ∧ (judged .ready (.diskProtect .absent) [0x31]).phase = .judge (.diskProtect .absent) [0x31]
      ∧ (judged .ready .wpByte [0x31]).phase = .judge .wpByte [0x31]
      ∧ (at' .ready (.protect true .ok)).phase = .protect true .ok
      ∧ (judged .writeEnabled .rspW [0x31]).phase = .judge .rspW [0x31] := by decide

/-- AbortEchoEndsTheRead, DataByteAppendsItsSymbols (an empty buffer, and one with no bit of room) and
VersionReplyRecordsTheVersion. -/
theorem witness_stream_rows :
    (echoed echoWindow).st = .streaming ∧ (echoed echoWindow).phase = .stream .echo
      ∧ (echoed echoWindow).str.abortSent = true
      ∧ (at' .streaming (.stream .leaveFlag)).phase = .stream .leaveFlag
      ∧ (at' .streaming (.stream .leaveState)).phase = .stream .leaveState
      ∧ (streamingAt 0x6D).st = .streaming ∧ (streamingAt 0x6D).phase = .stream (.byte 0x6D)
      ∧ (streamingAt 0x6D).str.abortSent = false
      ∧ (streamingAt 0x6D).cap.buf.wf = true ∧ (streamingAt 0x6D).str.wcur.bit < 8
      ∧ (streamingAt 0x6D).str.wcur.linear ≤ 8 * (streamingAt 0x6D).cap.size
      ∧ ({ pos := 2, bit := 0 } : Cursor).linear = 8 * (streaming []).cap.size
      ∧ nearVersion.st = .syncing ∧ nearVersion.phase = .hs .look
      ∧ (at' .syncing (.hs (.minor 5 false))).phase = .hs (.minor 5 false)
      ∧ (at' .syncing (.hs (.control false))).phase = .hs (.control false) := by decide

/-- IndexMarkForgetsTheGapStart, IdMarkLatchesItsHeader and DataMarkStoresItsSector, with size codes on
both sides of the limit. -/
theorem witness_decoder_rows :
    (firstWindow idamBytes).phase = .scan ∧ 63 ≤ (firstWindow idamBytes).dec.t
      ∧ ¬ 7 < ({ c := 0, h := 0, r := 1, n := 7 } : Header).n
      ∧ 7 < ({ c := 0, h := 0, r := 1, n := 8 } : Header).n := by decide

/-- The statements about whole operations: states that allow commands, bytes that may be run. -/
theorem witness_operations :
    (at' .ready .idle).st.commands = true ∧ (at' .writeEnabled .idle).st.commands = true
      ∧ mayRun par 0x2B = true ∧ mayRun par 0x7E = true ∧ mayRun par 0x52 = true
      ∧ (at' .ready .idle).st = .ready ∧ (at' .readEnabled .idle).st = .readEnabled
      ∧ (at' .writeEnabled .idle).st = .writeEnabled := by decide

/-- StreamStartEntersStreamingOrRetriesOnce: after a first and a second attempt, and the worker's call. -/
theorem witness_stream_start :
    let s := fun c n => { at' .readEnabled (.ret c) with
      frames := [.streamStart], str := { Stream.initial with startTries := n } }
    (s .ok 0).phase = .ret .ok ∧ (s .ok 0).frames = .streamStart :: [] ∧ (s .ok 0).Quiet
      ∧ (s .error 0).str.startTries = 0 ∧ (s .error 1).str.startTries ≠ 0 ∧ Code.error ≠ .ok
      ∧ (asking .readTrack).ops = .readTrack :: [] ∧ (asking .readTrack).st ≠ .readEnabled
      ∧ ({ asking .readTrack with st := .readEnabled }).st = .readEnabled := by
  unfold State.Quiet; decide

/-- AbortFlagIsTakenBetweenChunksOnly: each clause; a poll with 65 bytes waiting takes 64. -/
theorem witness_abort_flag :
    (at' .streaming (.stream .top)).phase = .stream .top ∧ StreamStep.bytes ≠ .top
      ∧ (streaming [0x6D]).phase = .stream .bytes ∧ Answer.isNext (step (streaming [0x6D])) = true
      ∧ (heard .streaming (.stream .poll) (List.replicate 65 0x6D)).tp.isOpen = true
      ∧ (heard .streaming (.stream .poll) (List.replicate 65 0x6D)).tick.received 64
        = 0x6D :: List.replicate 63 0x6D
      ∧ (at' .streaming (.stream (.chunk [0x6D]))).phase = .stream (.chunk [0x6D])
      ∧ ({ streaming [0x6D] with phase := .stream .got }).str.chunk ≠ []
      ∧ (streaming []).phase = .stream .bytes ∧ (streaming []).str.chunk = [] := by decide

/-- ThirtyEmptyPollsEndTheRead, with none and with 29 polls counted, and its second part. -/
theorem witness_stall :
    let s := fun n => { at' .streaming (.stream .top) with str := { Stream.initial with nStall := n } }
    (s 0).st = .streaming ∧ (s 0).phase = .stream .top ∧ (s 0).tp.isOpen = true ∧ (s 0).Quiet
      ∧ (s 0).tp.rx = [] ∧ (s 29).str.nStall < 30 ∧ (s 29).abortRequested = false
      ∧ ({ at' .readEnabled (.ret .noDiskInDrive) with frames := [.stalled] }).frames = [.stalled] := by
  unfold State.Quiet; decide

/-- EchoAnywhereInTheChunkEndsTheRead: one byte, the echo, one more. -/
theorem witness_echo_anywhere :
    let s := nearEcho [0x11, 0x58, 0x59, 0x5A, 0x78, 0x31, 0x22]
    s.st = .streaming ∧ s.phase = .stream .bytes ∧ s.str.abortSent = true
      ∧ s.str.chunk = [0x11] ++ [0x58, 0x59, 0x5A, 0x78, 0x31] ++ [0x22]
      ∧ ∀ k, k < 5 → ((s.str.awin.bytes ++ s.str.chunk).drop (k + 1)).take 5
        ≠ [0x58, 0x59, 0x5A, 0x78, 0x31] := by decide

/-- StreamWithoutEchoNeverLeavesStreaming: a chunk; the 29th empty poll; a device that sends a
zero byte before every step for ever. The window before the echo's last byte is no echo. -/
theorem witness_no_echo :
    let s := nearEcho [0x30, 0x58, 0x59]
    let u := { nearEcho [] with
      phase := .stream .got, str := { (nearEcho []).str with nStall := 28 } }
    let v := { nearEcho [] with phase := .stream .top, beyond := .again [Move.sending [0]] }
    s.st = .streaming ∧ s.phase = .stream .bytes ∧ s.str.abortSent = true
      ∧ (∀ k, k < 3 → ((s.str.awin.bytes ++ s.str.chunk).drop (k + 1)).take 5
        ≠ [0x58, 0x59, 0x5A, 0x78, 0x31])
      ∧ u.st = .streaming ∧ u.phase = .stream .got ∧ StreamStep.got.waiting = true
      ∧ u.str.abortSent = true ∧ u.tp.isOpen = true ∧ u.str.chunk = [] ∧ u.str.nStall + 1 < 30
      ∧ (echoed s.str.awin).phase = .stream .echo ∧ StreamStep.echo.waiting = true
      ∧ (echoed s.str.awin).str.awin.bytes ≠ [0x58, 0x59, 0x5A, 0x78, 0x31]
      ∧ v.st = .streaming ∧ v.phase = .stream .top ∧ v.str.abortSent = true ∧ v.tp.isOpen = true
      ∧ v.env = [] ∧ v.beyond = .again [Move.sending [0]] ∧ (0 : Byte) ≠ 0x31
      ∧ ∀ x ∈ v.tp.rx, x ≠ 0x31 := by decide

/-- OpenPortReachesTheSyncLoop, in each of its environments. -/
theorem witness_open_port :
    let s := fun e => { State.reset with ops := [.openPort "p" false true], env := e }
    let quiet := [Move.quiet, Move.quiet]
    let inUse := [Move.quiet, { Move.quiet with openAnswer := .failed .inUse }]
    let unset := [Move.quiet, Move.quiet, { Move.quiet with configOk := false }]
    (s quiet).st = .closed ∧ (s quiet).phase = .idle ∧ (s quiet).frames = []
      ∧ (s quiet).ops = [.openPort "p" false true] ∧ (s quiet).beyond = .again []
      ∧ (s quiet).env = [Move.quiet, { Move.quiet with openAnswer := .opened (.found 0) false false }]
      ∧ (s inUse).env = [Move.quiet, { Move.quiet with openAnswer := .failed .inUse }]
      ∧ (s unset).env = [Move.quiet, { Move.quiet with openAnswer := .opened (.found 0) false false },
          { Move.quiet with configOk := false }] := by decide

/-- HandshakeFindsTheVersionAtAnyOffset: the last byte is the 2049th (95_test_vectors.md V6.7). -/
theorem witness_handshake :
    let s := { heard .syncing (.hs .top) [0xFF, 0x31, 0x56, 0x39, 0x2C, 0x35, 0x07] with
      hs := { State.reset.hs with nSeen := 2043 } }
    s.st = .syncing ∧ s.phase = .hs .top ∧ s.tp.isOpen = true ∧ s.Quiet ∧ s.now < s.hs.t0 + 8000
      ∧ s.hs.nSeen + 1 + 5 ≤ 2049
      ∧ s.tp.rx = [0xFF] ++ [0x31, 0x56, 0x39, 0x2C, 0x35] ++ [0x07]
      ∧ ∀ k, k < 5 →
        decodeVersion (((s.hs.vwin.bytes ++ s.tp.rx).drop (k + 1)).take 5) = .reject .notVersion := by
  unfold State.Quiet; decide

/-- SyncLoopKicksAndGivesUp: a silent device, the limit of 8 s, and bytes 2048 and 2049. -/
theorem witness_sync_loop :
    let s := at' .syncing (.hs .top)
    let t := { s with now := 8000 }
    let u := fun n => { at' .syncing (.hs .look) with hs := { State.reset.hs with nSeen := n } }
    s.phase = .hs .top ∧ s.tp.isOpen = true ∧ s.Quiet ∧ s.tp.rx = [] ∧ s.hs.nSeen = 0
      ∧ s.hs.nEmpty = 0 ∧ s.now + 6 * deadline s.tp.rdTimeout 1 < s.hs.t0 + 8000
      ∧ t.hs.t0 + 8000 ≤ t.tick.now
      ∧ (at' .syncing (.hs (.byte [0x55]))).phase = .hs (.byte (0x55 :: []))
      ∧ (at' .syncing (.hs (.shift 0x55))).phase = .hs (.shift 0x55) ∧ (u 2048).phase = .hs .look
      ∧ decodeVersion (u 2048).hs.vwin.bytes = .reject .notVersion
      ∧ (u 2048).hs.nSeen ≤ 2048 ∧ ¬ (u 2049).hs.nSeen ≤ 2048 := by
  unfold State.Quiet; decide

/-- A session with this version recorded. -/
def versioned (p : Phase) (major minor : BitVec 4) : State :=
  { at' .syncing p with fw := { State.reset.fw with major := major, minor := minor } }

/-- HandshakeEndsReadyOrClosed (1.8 is accepted where 1.0 is the least) and FeatureQueryReadsThreeBytes
(1.8 and 1.9, three bytes and two). -/
theorem witness_handshake_end :
    (versioned (.hs .purge1) 1 8).phase = .hs .purge1 ∧ (versioned (.hs .purge1) 1 8).tp.isOpen = true
      ∧ (versioned (.hs .purge1) 1 8).Quiet
      ∧ featuresDue (versioned (.hs .purge1) 1 8).fw = false
      ∧ firmwareAccepted (versioned (.hs .purge1) 1 8).fw par = true
      ∧ firmwareAccepted (versioned (.hs .purge1) 0 9).fw par = false
      ∧ featuresDue (versioned (.hs .query) 1 9).fw = true
      ∧ (versioned (.hs .settle) 1 8).phase = .hs .settle ∧ (versioned (.hs .settle) 1 8).tp.isOpen = true
      ∧ (versioned (.hs .purge2) 1 8).phase = .hs .purge2 ∧ (versioned (.hs .purge2) 1 8).tp.isOpen = true
      ∧ (versioned (.hs (.flags2 0 0)) 1 8).phase = .hs (.flags2 0 0)
      ∧ (versioned (.hs (.build 0)) 1 8).phase = .hs (.build 0)
      ∧ (versioned (.hs .check) 1 0).phase = .hs .check ∧ (versioned (.hs .check) 1 0).tp.isOpen = true
      ∧ (versioned (.hs .check) 1 0).Quiet
      ∧ (versioned (.hs .check) 0 9).fw.major.toNat < par.minMajor
      ∧ ({ at' .syncing (.ret .ok) with frames := [.features] }).frames = [.features]
      ∧ (heard .syncing (.hs .featBytes) [1, 2, 3]).tp.rx = [1, 2, 3]
      ∧ (heard .syncing (.hs .featBytes) [1, 2]).Quiet
      ∧ (heard .syncing (.hs .featBytes) [1, 2]).tp.rx.length < 3 := by
  unfold State.Quiet; decide

/-- FailedSyncTogglesTheLinesAndCloses and ClosePortAlwaysEndsClosed. -/
theorem witness_close :
    let s := { at' .syncing (.hs .top) with hs := { State.reset.hs with triggerReset := true } }
    s.tp.isOpen = true ∧ s.Quiet ∧ s.hs.triggerReset = true
      ∧ (at' .syncing (.hs .top)).hs.triggerReset = false
      ∧ (at' .readEnabled .idle).st.commands = true
      ∧ ({ State.reset with ops := [.closePort] }).st = .closed
      ∧ ({ at' .syncing .idle with ops := [.closePort] }).phase = .idle := by
  unfold State.Quiet; decide

/-- TransitionsCarryRunAndHint: 1001 has a 1 bit at 3, three cells after the first. -/
theorem witness_transitions :
    ([true, false, false, true] : List Bool)[3]? = some true
      ∧ transitions false false none [true, false, false, true] = [(none, .none), (some 3, .none)] := by
  decide

/-- PayloadIsFramedByDensity (the payload, the write command's code, silence) and ScanComputesDecode. -/
theorem witness_payload_and_scan :
    (at' .writeEnabled (.payload true)).phase = .payload true
      ∧ (at' .writeEnabled (.payload true)).tp.isOpen = true
      ∧ ({ at' .writeEnabled (.ret .error) with frames := [.payload true] }).phase = .ret .error
      ∧ ({ at' .writeEnabled (.ret .error) with frames := [.payload true] }).frames = [.payload true]
      ∧ (judged .writeEnabled .rspW []).phase = .judge .rspW []
      ∧ ({ at' .ready .scan with dec := Decoder.initial true 3 1 9 }).frames = []
      ∧ ({ at' .ready .scan with dec := Decoder.initial true 3 1 9 }).dec = Decoder.initial true 3 1 9 := by
  decide

/-- BitsWrittenAreBitsRead (the last bit of the buffer included), ExtractTakesTheOddBits (a whole buffer),
InsertKeepsTheBetterCopy (22 and 23),
FinishFillsAndCounts. -/
theorem witness_bits_and_tracks :
    Memory.wf [(0, 0xA5), (1, 0x3C)] = true ∧ 8 * 1 + 4 + [true, false, true, true].length ≤ 8 * 2
      ∧ 1 ≤ 22 ∧ 22 < 23
      ∧ (let s := { asking (.extract 15 2) with cap := { buf := [], size := 2, bitLength := 16 } }
        s.phase = .idle ∧ s.ops = .extract 15 2 :: [] ∧ 0 < s.cap.bitLength
          ∧ s.cap.bitLength ≤ 8 * s.cap.size)
      ∧ Track.wf [(0, Sector.filler), (4, Sector.filler)] = true := by
  decide +kernel

/-- ObservedSectorsStayInBounds: a scan with a header latched and one sector stored, whose step stays in
the scan. -/
theorem witness_bounded :
    let s := { firstWindow idamBytes with
      dec := { (firstWindow idamBytes).dec with
        headerFound := true, hdr := { c := 0, h := 0, r := 1, n := 0 }, hdrErr := 4
        trk := [(21, { bytes := List.replicate 128 0, errorCount := 0xF1 })] } }
    s.par.ok = true ∧ s.phase = .scan ∧ Decoder.Bounded s.par s.dec
      ∧ look (step s) (·.phase) = some .scan := by
  unfold Decoder.Bounded; decide +kernel

/-- FailedTrackReadsCalibrateAndRetry: a failed select, surface and read, at the second attempt and the
third, for seek and for readByte; the first attempt of each, and a head that is there; the two calibration seeks; each step that succeeds; the end of a scan. -/
theorem witness_retry :
    let s := fun c k n f => { at' .readEnabled (.ret c) with frames := [.capture k 83 1 n, f] }
    let unread := { asking (.readByte 1 4) with ad := { State.reset.ad with attached := true, curTrack := 5 } }
    let done := { at' .readEnabled .scan with
      frames := [.captureDecode 83 1, .serve 1 4]
      dec := { Decoder.initial true 83 1 18 with t := 100 }
      cap := { buf := [], size := 2, bitLength := 16 } }
    (s .error .read 2 (.seekHead 83 1)).phase = .ret .error ∧ Code.error ≠ .ok
      ∧ (s .error .read 2 (.seekHead 83 1)).st.commands = true
      ∧ (s .error .select 2 (.seekHead 83 1)).frames = [.capture .select 83 1 2, .seekHead 83 1]
      ∧ (s .error .surface 3 (.seekHead 83 1)).frames = .capture .surface 83 1 3 :: [.seekHead 83 1]
      ∧ (s .error .read 3 (.serve 1 4)).frames = .capture .read 83 1 3 :: [.serve 1 4]
      ∧ (s .error .calOut 2 (.serve 1 4)).frames = .capture .calOut 83 1 2 :: [.serve 1 4]
      ∧ (s .error .calBack 2 (.serve 1 4)).frames = .capture .calBack 83 1 2 :: [.serve 1 4]
      ∧ (s .ok .surface 1 (.serve 1 4)).st = .readEnabled
      ∧ (s .ok .read 1 (.serve 1 4)).cap.bitLength ≤ 8 * (s .ok .read 1 (.serve 1 4)).cap.size
      ∧ (at' .ready (.seek 83 1)).phase = .seek 83 1
      ∧ cacheGet (at' .ready (.seek 83 1)).ad.cache 83 1 = none
      ∧ cacheGet [({ track := 83, head := 1, trk := [] } : CacheEntry)] 83 1 = some []
      ∧ unread.ops = .readByte 1 4 :: [] ∧ unread.ad.attached = true ∧ unread.ad.curTrack ≤ 83
      ∧ unread.st.commands = true ∧ cacheGet unread.ad.cache unread.ad.curTrack 1 = none
      ∧ done.phase = .scan ∧ scanOver done.dec done.cap = true
      ∧ done.frames = .captureDecode 83 1 :: [.serve 1 4] := by decide

/-- A device attached, its current track's heads cached, and these operations. -/
def attached (ops : List Op) : State :=
  { at' .readEnabled .idle with
    ops := ops
    ad := { State.reset.ad with
      attached := true, curTrack := 5
      cache := [{ track := 5, head := 0, trk := [] }, { track := 5, head := 1, trk := [] }] } }

/-- ServedByteIsDataOrThePattern and AdapterAttachesSeeksAndAnswers: an empty slot attached, the code
of openPort and of the density check, an attached device asked, an empty slot asked. -/
theorem witness_adapter :
    let s := { State.reset with ops := [.attach "p" false true] }
    (attached [.readByte 1 4]).phase = .idle ∧ (attached [.readByte 1 4]).ops = [.readByte 1 4]
      ∧ (attached [.readByte 1 4]).ad.attached = true
      ∧ cacheGet (attached [.readByte 1 4]).ad.cache (attached [.readByte 1 4]).ad.curTrack 1 = some []
      ∧ (attached [.seek 5]).ops = [.seek (attached [.seek 5]).ad.curTrack]
      ∧ (attached [.seek 5]).Quiet
      ∧ cacheGet (attached [.seek 5]).ad.cache (attached [.seek 5]).ad.curTrack 0 = some []
      ∧ s.phase = .idle ∧ s.ad.attached = false ∧ s.st = .closed
      ∧ ({ at' .ready (.ret .ok) with frames := [.attachOpen] }).frames = [.attachOpen]
      ∧ ({ at' .ready (.ret .ok) with frames := [.attachDensity] }).frames = [.attachDensity]
      ∧ (attached [.detach]).st.commands = true
      ∧ (asking .writeprot).ad.attached = false ∧ (asking .writeprot).ops = .writeprot :: [] := by
  unfold State.Quiet; decide

/-- The read-only interface with a device, and without one (46_device_adapter.md R281, R290). -/
theorem test_read_only_interface :
    look (step (attached [.formatSupported])) (·.out) = some (.bool false)
      ∧ look (step (attached [.writeprot])) (·.out) = some (.bool true)
      ∧ refusal (step (asking .formatSupported)) = some .notAttached := by decide

/-- StepsKeepTheParameters, StepsKeepTheCanonicalForms, CachedFlagsAreWrittenByTheirChecksOnly: a state
in canonical form that steps. -/
theorem witness_canonical :
    (streaming [0x6D]).Canonical ∧ Answer.isNext (step (streaming [0x6D])) = true := by
  unfold State.Canonical; decide

/-- StepsKeepTheSessionConsistent and EngineStateMovesOnlyByItsTable: a stream start waiting for its
response, which steps. -/
theorem witness_session :
    let s := { judged .readEnabled .rsp1 [0x31] with frames := [.streamStart] }
    s.SessionInv ∧ Answer.isNext (step s) = true := by
  intro s
  have hp : s.phase = .judge .rsp1 [0x31] := rfl
  have hf : s.frames = [.streamStart] := rfl
  refine ⟨⟨fun _ _ => rfl, ?_, ?_, ?_, fun _ => ⟨rfl, .inr (.inl ⟨_, rfl⟩)⟩, ?_⟩, by decide⟩
  · simp [hp]
  · simp [hp]
  · simp [hf]
  · simp [hf]

/-- StepsKeepTheStreamInBounds: in the loop with 29 empty polls counted; with a check after a stall. -/
theorem witness_stream :
    let s := { streaming [0x6D] with str := { (streaming [0x6D]).str with nStall := 29 } }
    let u := { judged .readEnabled .diskPresence [0x31] with frames := [.stalled] }
    s.StreamInv ∧ Answer.isNext (step s) = true ∧ u.StreamInv ∧ Answer.isNext (step u) = true := by
  intro s u
  have hp : s.phase = .stream .bytes := rfl
  have hs : s.st = .streaming := rfl
  have hf : s.frames = [] := rfl
  have hq : u.phase = .judge .diskPresence [0x31] := rfl
  have hu : u.st = .readEnabled := rfl
  have hg : u.frames = [.stalled] := rfl
  have hc : s.CursorInside := by unfold State.CursorInside; decide
  have hd : u.CursorInside := by unfold State.CursorInside; decide
  refine ⟨⟨by decide, ?_, fun _ => .inl rfl, fun _ => ⟨fun _ => hc, fun _ => by decide⟩, ?_, by decide,
    ?_, ?_, ?_⟩, by decide, ⟨by decide, ?_, ?_, ?_, ?_, by decide, ?_, ?_, fun _ => ⟨?_, hd⟩⟩, by decide⟩
  all_goals simp [hp, hf, hq, hu, hg, Phase.isStream, Phase.inRecheck]

end Sys2Proof.Tests
end

section
/-! SUPPORT. Runs of several steps, one lemma per place of the engine that they pass, what the moves of an
exchange do, and on these the failed handshake and `closePort` (41_handshake.md R160, R162). -/

namespace Sys2Proof.Machine

variable {s t : State}

/-! ### Runs -/

theorem steps_succ (h : step s = .next t) (n : Nat) : steps (n + 1) s = steps n t := by
  simp [steps, h]

theorem steps_one (h : step s = .next t) : steps 1 s = .next t := steps_succ h 0

/-- A run is its first step and the run that follows it. -/
theorem steps_of_step {n : Nat} {a : Answer} (h : step s = .next t) (k : steps n t = a) :
    steps (n + 1) s = a := (steps_succ h n).trans k

theorem steps_add {m : Nat} (h : steps m s = .next t) (n : Nat) : steps (m + n) s = steps n t := by
  induction m generalizing s with
  | zero =>
    obtain rfl : s = t := by simpa [steps] using h
    rw [Nat.zero_add]
  | succ m ih =>
    cases hs : step s with
    | next u =>
      rw [steps_succ hs] at h
      rw [Nat.add_right_comm, steps_succ hs, ih h]
    | fault r => simp [steps, hs] at h
    | refused r => simp [steps, hs] at h

/-! ### One step, place by place -/

/-- A step that finds no instruction gives the answer it finds. -/
theorem step_eq_of_moved {a : Answer} (h : s.tick.fetch = .moved a) : step s = a := by
  simp [step, h, runFetched]

/-- In a quiet environment such a step is read off what the machine finds as it stands. -/
theorem step_quiet {a : Answer} (hq : s.Quiet)
    (h : State.fetch { s with cur := Move.quiet } = .moved a) : step s = a :=
  step_eq_of_moved (by rw [State.tick_quiet hq, h])

theorem step_idle (hp : s.phase = .idle) : step s = s.tick.nextOp :=
  step_eq_of_moved (by simp [State.fetch, hp])

theorem step_pause {w : List Byte} (hp : s.phase = .pause w) :
    step s = .next (s.tick.commandPause (.mark w)) :=
  step_eq_of_moved (by simp [State.fetch, hp])

theorem step_mark {w : List Byte} (hp : s.phase = .mark w) :
    step s = .next (s.tick.commandMark (w.headD 0) (.issue w)) :=
  step_eq_of_moved (by simp [State.fetch, hp])

theorem step_issue {w : List Byte} {i : Instr} (hp : s.phase = .issue w)
    (hd : decode s.par.sync .command w = .instr i) : step s = exec i s.tick :=
  step_eq_exec (by simp [State.fetch, hp, hd, orElse]) (by simp [hp])

theorem step_await {a : Await} (hp : s.phase = .await a) (ho : s.tp.isOpen = true) :
    step s = .next (s.tick.readTo 1 (.judge a)) :=
  step_eq_of_moved (by simp [State.fetch, hp, State.onChannel, ho])

theorem step_exit {c : Code} (hp : s.phase = .exit c) : step s = .next (s.tick.ret c) :=
  step_eq_of_moved (by simp [State.fetch, hp])

/-- A returned code goes to the operation that waits for it (60_exceptions.md R312), here in a quiet
environment. -/
theorem step_ret_quiet {c : Code} {f : Frame} {rest : List Frame} (hq : s.Quiet)
    (hp : s.phase = .ret c) (hf : s.frames = f :: rest) :
    step s = resume f c { s with frames := rest, cur := Move.quiet } :=
  step_quiet hq (by simp [State.fetch, hp, State.handBack, hf, State.pop])

/-- A place of the handshake other than the look at its window finds no instruction. -/
theorem step_hs {k : HsStep} (hp : s.phase = .hs k) (hk : k ≠ .look) : step s = s.tick.hsStep k :=
  step_eq_of_moved (by simp [State.fetch, hp, State.fetchHs])

/-- A response of the command/response primitive is judged: silence, `1`, `0` and every other byte
return their codes (42_commands.md R170). -/
theorem step_judge_rsp1 {bs : List Byte} (hp : s.phase = .judge .rsp1 bs) :
    step s = .next (s.tick.ret (responseCode bs)) := by
  cases bs with
  | nil =>
    exact step_eq_of_moved
      (by simp [State.fetch, hp, State.fetchResponse, State.noResponse, responseCode])
  | cons b rest =>
    have run : step s = exec (decodeRsp1 b) s.tick :=
      step_eq_exec (by simp [State.fetch, hp, State.fetchResponse, Await.ctx, decode, orElse])
        (by simp [hp])
    have judged : ∀ c, s.tick.answer .rsp1 (s.tick.ret c) = .next (s.tick.ret c) := fun c =>
      State.answer_eq_next.mpr ⟨by simp [hp, Phase.judging], rfl⟩
    rw [run, decodeRsp1, responseCode]
    split
    · exact judged .ok
    · split
      · exact judged .error
      · exact judged .statusError

/-! ### The moves of an exchange -/

theorem State.tick_of_quiet_move {rest : List Move} (h : s.env = Move.quiet :: rest) :
    s.tick = { s with cur := Move.quiet, env := rest } := by
  simp [State.tick, State.nextMove, State.restMoves, State.restBeyond, h, Transport.serve, Move.quiet]

theorem State.tick_of_accepting {whole : Bool} {rest : List Move}
    (h : s.env = Move.accepting whole :: rest) :
    s.tick = { s with cur := Move.accepting whole, env := rest } := by
  simp [State.tick, State.nextMove, State.restMoves, State.restBeyond, h, Transport.serve,
    Move.accepting, Move.quiet]

theorem State.tick_of_sending {bs : List Byte} {rest : List Move}
    (h : s.env = Move.sending bs :: rest) (ho : s.tp.isOpen = true) :
    s.tick = { s with
      cur := Move.sending bs, env := rest, tp := { s.tp with rx := s.tp.rx ++ bs } } := by
  simp [State.tick, State.nextMove, State.restMoves, State.restBeyond, h, Transport.serve, ho,
    Move.sending, Move.quiet]

/-- A write that the environment accepts whole takes no time; one it does not accept at all takes its
deadline (40_transport.md R133). -/
theorem State.send_of_accepting {whole : Bool} (h : s.cur = Move.accepting whole) (b : Byte) (e : Code)
    (p : Phase) :
    s.send [b] e p = if whole
      then { s with tp := { s.tp with tx := s.tp.tx ++ [b] }, phase := p }
      else { s with now := s.now + deadline s.tp.wrTimeout 1, phase := .exit e } := by
  cases whole <;>
    simp [State.send, State.wrote, State.goto, State.accepted, h, Move.accepting, Move.quiet]

/-! ### The parts of a command -/

/-- The pause and the mark before a command (42_commands.md R170, 60_exceptions.md R305). -/
theorem steps_pause_and_mark {w : List Byte} {rest : List Move} (hp : s.phase = .pause w)
    (he : s.env = Move.quiet :: Move.quiet :: rest) :
    steps 2 s = .next { s with
      lastCommand := w.headD 0, phase := .issue w, now := s.now + 1, env := rest
      cur := Move.quiet } := by
  rw [steps_succ (step_pause hp), State.tick_of_quiet_move he]
  exact (steps_one (step_mark rfl)).trans (by rw [State.tick_of_quiet_move rfl]; rfl)

/-- The response of the command/response primitive is read and judged: silence costs the read deadline
(42_commands.md R170). -/
theorem steps_response {rsp : List Byte} (hp : s.phase = .await .rsp1) (ho : s.tp.isOpen = true)
    (hr : s.tp.rx = []) (he : s.env = [Move.sending rsp]) (hb : s.beyond = .again []) :
    steps 2 s = .next { s with
      lastError := responseCode rsp, phase := .ret (responseCode rsp), env := [], cur := Move.quiet
      tp := { s.tp with rx := rsp.drop 1 }
      now := s.now + if rsp = [] then deadline s.tp.rdTimeout 1 else 0 } := by
  have read : step s = .next { s with
      phase := .judge .rsp1 (rsp.take 1), env := [], cur := Move.sending rsp
      tp := { s.tp with rx := rsp.drop 1 }
      now := s.now + if rsp = [] then deadline s.tp.rdTimeout 1 else 0 } := by
    rw [step_await hp ho, State.tick_of_sending he ho]
    cases rsp <;>
      simp [State.readTo, State.received, State.readCount, State.afterRead, State.goto, hr,
        Move.sending, Move.quiet]
  have judged : responseCode (rsp.take 1) = responseCode rsp := by cases rsp <;> rfl
  rw [steps_succ read, steps_one (step_judge_rsp1 rfl), State.tick_quiet, judged]
  · rfl
  · exact ⟨rfl, hb⟩

/-- With nothing left to do and a quiet environment the machine stays as it is. -/
theorem steps_idle {n : Nat} (hq : s.Quiet) (hp : s.phase = .idle) (ho : s.ops = [])
    (hc : s.cur = Move.quiet) : steps n s = .next s := by
  have stays : s.tick = s := by rw [State.tick_quiet hq, ← hc]
  have again : step s = .next s := by simp [step_idle hp, stays, State.nextOp, ho]
  induction n with
  | zero => rfl
  | succ n ih => rw [steps_succ again, ih]

/-! ### A failed handshake (41_handshake.md R160) -/

/-- A step inside the handshake in a quiet environment; a Transport primitive goes on by `if_pos` of the
session. -/
theorem step_hs_quiet {k : HsStep} {n : State} (hq : s.Quiet) (hp : s.phase = .hs k) (hk : k ≠ .look)
    (hn : State.hsStep { s with cur := Move.quiet } k = .next n) : step s = .next n := by
  rw [step_hs hp hk, State.tick_quiet hq, hn]

theorem steps_lines_low (hq : s.Quiet) (ho : s.tp.isOpen = true) (hp : s.phase = .hs .dtrLow) :
    steps 2 s = .next { s with
      tp := { s.tp with dtr := false, rts := false }, cur := Move.quiet, phase := .hs .settleLow } := by
  refine steps_of_step (step_hs_quiet hq hp nofun (if_pos ho)) ?_
  exact steps_one (step_hs_quiet hq rfl nofun (if_pos ho))

theorem steps_lines_high (hq : s.Quiet) (ho : s.tp.isOpen = true) (hp : s.phase = .hs .settleLow) :
    steps 3 s = .next { s with
      tp := { s.tp with dtr := true, rts := true }, cur := Move.quiet, now := s.now + 10
      phase := .hs .settleHigh } := by
  have settle : step s = .next { s with
      cur := Move.quiet, now := s.now + 10, phase := .hs .dtrHigh } := step_hs_quiet hq hp nofun rfl
  refine steps_of_step settle ?_
  refine steps_of_step (step_hs_quiet hq rfl nofun (if_pos ho)) ?_
  exact steps_one (step_hs_quiet hq rfl nofun (if_pos ho))

/-- The port is closed and the code returned. -/
theorem steps_close {c : Code} (hq : s.Quiet) (ho : s.tp.isOpen = true) (hp : s.phase = .hs (.close c)) :
    steps 3 s = .next { s with
      tp := Transport.absent s.tp.saved, st := .closed, cur := Move.quiet
      lastError := c, phase := .ret c } := by
  refine steps_of_step (step_hs_quiet hq hp nofun (if_pos ho)) ?_
  refine steps_of_step (step_hs_quiet hq rfl nofun rfl) ?_
  exact steps_one (step_quiet hq rfl)

/-- After the reset sequence, once the lines are high: the last settle time, then the port is closed. -/
theorem steps_close_after_reset (hq : s.Quiet) (ho : s.tp.isOpen = true)
    (hp : s.phase = .hs .settleHigh) :
    steps 4 s = .next { s with
      tp := Transport.absent s.tp.saved, st := .closed, cur := Move.quiet, now := s.now + 10
      lastError := .errorReadingVersion, phase := .ret .errorReadingVersion } := by
  refine steps_of_step (step_hs_quiet hq hp nofun rfl) ?_
  exact steps_close hq ho rfl

/-- Settles O40: the reset sequence, if requested, then the close. -/
theorem failedSyncTogglesTheLinesAndCloses : Obligations.FailedSyncTogglesTheLinesAndCloses := by
  intro s e ho hq
  refine ⟨fun reset => ?_, fun noReset => ?_⟩
  · have start : s.hsFail e = { s with phase := .hs .dtrLow } := if_pos reset
    have low := steps_lines_low (s := { s with phase := .hs .dtrLow }) hq ho rfl
    have high := (steps_add low 3).trans (steps_lines_high hq ho rfl)
    have closed := (steps_add high 4).trans (steps_close_after_reset hq ho rfl)
    rw [start]
    exact ⟨low, s.now + 10, s.now + 10 + 10, le_rfl, le_rfl, high, closed⟩
  · have start : s.hsFail e = { s with phase := .hs (.close e) } := if_neg (by simp [noReset])
    rw [start]
    exact steps_close hq ho rfl

/-! ### `closePort` (41_handshake.md R162) -/

theorem State.startClosePort_of_commands (h : s.st.commands = true) :
    s.startClosePort = .next ((s.push .closing).goto (.pause [Cmd.disable])) := by
  cases hs : s.st <;> simp_all [State.startClosePort, EngineState.commands]

/-- `closePort` in an engine state that allows commands, up to the write of the disable command. -/
theorem steps_closePort_to_disable {rest : List Move} (hp : s.phase = .idle) (ho : s.ops = [.closePort])
    (hs : s.st.commands = true) (he : s.env = Move.quiet :: Move.quiet :: Move.quiet :: rest) :
    steps 3 s = .next { s with
      lastCommand := 0x2D, phase := .issue [0x2D], frames := .closing :: s.frames, ops := []
      now := s.now + 1, env := rest, cur := Move.quiet } := by
  have start : step s = .next { s with
      phase := .pause [0x2D], frames := .closing :: s.frames, ops := []
      env := Move.quiet :: Move.quiet :: rest, cur := Move.quiet } := by
    rw [step_idle hp, State.tick_of_quiet_move he]
    simp only [State.nextOp, ho]
    exact State.startClosePort_of_commands hs
  exact steps_of_step start (steps_pause_and_mark (w := [0x2D]) rfl rfl)

/-- The disable command is written, or not, with `enableReading(false)` waiting for its code
(42_commands.md R181). -/
theorem step_disable {whole : Bool} {rest : List Move} (hp : s.phase = .issue [0x2D])
    (hs : s.st.commands = true) (ho : s.tp.isOpen = true)
    (he : s.env = Move.accepting whole :: rest) :
    step s = .next (if whole
      then { s with
        frames := .enableOff :: s.frames, phase := .await .rsp1, env := rest
        cur := Move.accepting whole, tp := { s.tp with tx := s.tp.tx ++ [0x2D] } }
      else { s with
        frames := .enableOff :: s.frames, phase := .exit .sendFailed, env := rest
        cur := Move.accepting whole, now := s.now + deadline s.tp.wrTimeout 1 }) := by
  have run : exec .disable s.tick
      = .next ((s.tick.push .enableOff).send [0x2D] .sendFailed (.await .rsp1)) :=
    State.command_eq_next.mpr
      ⟨by simp [hp, Phase.isIssue], by simpa using hs, by simpa using ho, rfl⟩
  rw [step_issue hp (i := .disable) rfl, run, State.tick_of_accepting he, State.send_of_accepting rfl]
  rfl

/-- The exchange of the disable command ends with the return of its code: after three steps if the
command was accepted, after two if not. -/
theorem steps_disable_exchange {accepted : Bool} {rsp : List Byte} (hp : s.phase = .issue [0x2D])
    (hs : s.st.commands = true) (ho : s.tp.isOpen = true) (hr : s.tp.rx = [])
    (he : s.env = [Move.accepting accepted, Move.sending rsp]) (hb : s.beyond = .again []) :
    ∃ now cur tp, s.now ≤ now ∧ tp.isOpen = true ∧ tp.saved = s.tp.saved
      ∧ steps (if accepted then 3 else 2) s = .next { s with
        lastError := commandCode accepted rsp, phase := .ret (commandCode accepted rsp)
        frames := .enableOff :: s.frames, env := [], now := now, cur := cur, tp := tp } := by
  have write := step_disable hp hs ho he
  cases accepted with
  | true =>
    rw [if_pos rfl] at write
    have response := steps_of_step write (steps_response rfl ho hr rfl hb)
    refine ⟨_, _, _, ?_, ?_, ?_, response⟩
    · exact Nat.le_add_right ..
    · exact ho
    · rfl
  | false =>
    rw [if_neg (by decide)] at write
    refine ⟨s.now + deadline s.tp.wrTimeout 1, Move.sending rsp, { s.tp with rx := s.tp.rx ++ rsp },
      Nat.le_add_right .., ho, rfl, steps_of_step write (steps_one ?_)⟩
    rw [step_exit rfl, State.tick_of_sending]
    · rfl
    · rfl
    · exact ho

/-- `enableReading(false)` returns the code of its exchange to its caller, in one step, or in two if it
moves the engine state first (42_commands.md R181). -/
theorem steps_enableOff_return {c : Code} {rest : List Frame} (hq : s.Quiet) (hp : s.phase = .ret c)
    (hf : s.frames = .enableOff :: rest) :
    ∃ n ≤ 1, ∃ st, steps (n + 1) s = .next { s with
      st := st, lastError := c, phase := .ret c, frames := rest, cur := Move.quiet } := by
  have back : step s = .next (State.afterDisable { s with frames := rest, cur := Move.quiet } c) :=
    step_ret_quiet hq hp hf
  obtain ⟨-, moved⟩ | ⟨-, stayed⟩ := State.moveAndReturn_cases
    { s with frames := rest, cur := Move.quiet }
    (c == .ok && (s.st == .readEnabled || s.st == .writeEnabled)) .ready c
  · have move := back.trans (congrArg _ moved)
    exact ⟨1, le_rfl, _, steps_of_step move (steps_one (step_quiet hq rfl))⟩
  · exact ⟨0, Nat.zero_le 1, _, steps_one (back.trans (congrArg _ stayed))⟩

/-- Whatever code the disable exchange has returned to it, `closePort` ends in `Closed`. -/
theorem steps_closePort_finish {c : Code} {rest : List Frame} (hq : s.Quiet) (ho : s.tp.isOpen = true)
    (hp : s.phase = .ret c) (hf : s.frames = .closing :: rest) :
    steps 3 s = .next { s with
      st := .closed, tp := Transport.absent s.tp.saved, phase := .idle, frames := rest
      cur := Move.quiet } := by
  have back : step s = .next { s with phase := .closing, frames := rest, cur := Move.quiet } :=
    step_ret_quiet hq hp hf
  refine steps_of_step back (steps_of_step (step_quiet hq (congrArg _ (if_pos ho))) ?_)
  exact steps_one (step_quiet hq rfl)

/-- From the code of the disable exchange on, `closePort` is at rest in `Closed` after five steps, or
after any more. -/
theorem steps_closePort_after_disable {c : Code} (hq : s.Quiet) (ho : s.tp.isOpen = true)
    (hp : s.phase = .ret c) (hf : s.frames = [.enableOff, .closing]) (hops : s.ops = []) (k : Nat) :
    steps (5 + k) s = .next { s with
      st := .closed, tp := Transport.absent s.tp.saved, lastError := c, phase := .idle, frames := []
      cur := Move.quiet } := by
  obtain ⟨n, hn, st, returned⟩ := steps_enableOff_return hq hp hf
  have finished := (steps_add returned 3).trans (steps_closePort_finish hq ho rfl rfl)
  have count : 5 + k = n + 1 + 3 + (1 - n + k) := by omega
  rw [count, steps_add finished]
  exact steps_idle hq rfl hops rfl

/-- Settles O41: the disable exchange returns some code to `closePort`, which then releases the
Transport whatever the code. -/
theorem closePortAlwaysEndsClosed : Obligations.ClosePortAlwaysEndsClosed := by
  intro s accepted rsp
  refine ⟨fun hs => ?_, fun hs hp rest hops => ?_, fun hs hp rest hops => ?_⟩
  · have start := steps_closePort_to_disable (s := s.asked .closePort (Move.exchange accepted rsp))
      rfl rfl hs rfl
    obtain ⟨now, cur, tp, hnow, hopen, hsaved, exchange⟩ :=
      steps_disable_exchange (s := { s.asked .closePort [Move.accepting accepted, Move.sending rsp] with
        lastCommand := 0x2D, phase := .issue [0x2D], frames := [.closing], ops := []
        now := s.now + 1, cur := Move.quiet }) rfl hs rfl rfl rfl rfl
    have total : 11 = 3 + ((if accepted then 3 else 2) + (5 + if accepted then 0 else 1)) := by
      cases accepted <;> rfl
    refine ⟨now, hnow, ?_⟩
    rw [total, steps_add start]
    refine (steps_add exchange _).trans ?_
    refine (steps_closePort_after_disable ⟨rfl, rfl⟩ hopen rfl rfl rfl _).trans ?_
    simp only [hsaved]
    rfl
  · rw [step_idle hp]
    simp only [State.nextOp, State.tick_fields, hops, startOp, State.startClosePort, hs]
    rw [State.goto, ← hp]
  · rw [step_idle hp]
    obtain hs | hs := hs <;> simp [State.nextOp, hops, startOp, State.startClosePort, hs]

end Sys2Proof.Machine
end

section
/-! SUPPORT. Operations that are one wire command and its exchange: what each needs of the model, said
once, the run of the exchange up to the judgement of its response or the return of its code, and on
these the simple commands (42_commands.md R174, R176, R178, R182, R183, R184, R186). -/

namespace Sys2Proof.Machine

variable {s u : State}

/-! ### Operations of one wire command -/

/-- The operation `o` is the wire command `i` of the bytes `c :: ps`: its call begins the pause before
them, they decode to `i`, and `i` writes them, with the operations that wait for its code, and awaits
`a`. -/
structure IsCommand (o : Op) (c : Byte) (ps : List Byte) (i : Instr) (a : Await) : Prop where
  starts : ∀ t : State, t.st.commands = true → startOp o t = .next (t.goto (.pause (c :: ps)))
  decodes : ∀ k, decode k .command (c :: ps) = .instr i
  writes : ∀ t : State, exec i t = t.command t.st.commands
    (State.send { t with frames := waitingFor i ++ t.frames } (c :: ps) .sendFailed (.await a))

theorem isCommand_rewind : IsCommand .rewind 0x2E [] .rewind .rsp1 where
  starts _ h := if_pos h
  decodes _ := rfl
  writes _ := rfl

theorem isCommand_head0 : IsCommand (.selectSurface 0) 0x5B [] .head0 .rsp1 where
  starts _ h := if_pos h
  decodes _ := rfl
  writes _ := rfl

theorem isCommand_head1 : IsCommand (.selectSurface 1) 0x5D [] .head1 .rsp1 where
  starts _ h := if_pos h
  decodes _ := rfl
  writes _ := rfl

theorem isCommand_diagnostics : IsCommand .diagnostics 0x26 [] .diagnostics .rsp1 where
  starts _ h := if_pos h
  decodes _ := rfl
  writes _ := rfl

theorem isCommand_checkDisk : IsCommand (.checkDisk true) 0x5E [] .checkDisk .diskPresence where
  starts _ h := if_pos h
  decodes _ := rfl
  writes _ := rfl

theorem isCommand_checkWriteProtect : IsCommand .checkWriteProtect 0x24 [] .checkWp .wpByte where
  starts _ h := if_pos h
  decodes _ := rfl
  writes _ := rfl

theorem isCommand_checkDensity : IsCommand .checkDensity 0x54 [] .density .rsp1 where
  starts _ h := if_pos h
  decodes _ := rfl
  writes _ := rfl

/-- The digit of a value below 10 reads back (30_encoding.md R96). -/
theorem isDigit_digitByte {n : Nat} (h : n < 10) :
    isDigit (digitByte n) = true ∧ digitValue (digitByte n) = n := by
  have value : (digitByte n).toNat = 0x30 + n := by
    simp only [digitByte, BitVec.toNat_ofNat]
    omega
  simp only [isDigit, digitValue, value, Bool.and_eq_true, decide_eq_true_eq]
  omega

theorem decode_encodeTrack (k : SyncWords) {n : Nat} (h : n ≤ Config.trackMax) :
    decode k .command (encodeTrack n) = .instr (.gotoTrack n) := by
  have bound : n ≤ 83 := h
  obtain ⟨tensDigit, tensValue⟩ := isDigit_digitByte (n := n / 10) (by omega)
  obtain ⟨unitsDigit, unitsValue⟩ := isDigit_digitByte (n := n % 10) (by omega)
  have value : 10 * (n / 10) + n % 10 = n := by omega
  simp [encodeTrack, decode, Sys2Proof.decodeTrack, tensDigit, tensValue, unitsDigit, unitsValue, value, h]

theorem isCommand_selectTrack {n : Nat} (h : n ≤ 83) :
    IsCommand (.selectTrack n) 0x23 [digitByte (n / 10), digitByte (n % 10)] (.gotoTrack n) .rspT where
  starts _ ht := (if_neg fun out => Nat.not_lt.mpr h out.2).trans (if_pos ht)
  decodes k := decode_encodeTrack k h
  writes t := congrArg (t.command t.st.commands) (if_neg (Nat.not_lt.mpr h))

/-! ### The command is written -/

/-- A write that the environment accepts whole takes no time; one it does not accept at all takes its
deadline (40_transport.md R133). -/
theorem State.send_word_of_accepting {whole : Bool} (h : s.cur = Move.accepting whole) (c : Byte)
    (ps : List Byte) (e : Code) (p : Phase) :
    s.send (c :: ps) e p = if whole
      then { s with tp := { s.tp with tx := s.tp.tx ++ c :: ps }, phase := p }
      else { s with now := s.now + deadline s.tp.wrTimeout (c :: ps).length, phase := .exit e } := by
  cases whole <;>
    simp [State.send, State.wrote, State.goto, State.accepted, h, Move.accepting, Move.quiet]

section Exchange

variable {o : Op} {c : Byte} {ps : List Byte} {i : Instr} {a : Await}

/-- The call of the operation, the pause and the mark lead to the write (42_commands.md R170). -/
theorem IsCommand.steps_to_issue (ho : IsCommand o c ps i a) (hs : s.st.commands = true) (rest : List Move) :
    steps 3 (s.asked o (Move.quiet :: Move.quiet :: Move.quiet :: rest)) = .next { s.asked o rest with
      lastCommand := c, phase := .issue (c :: ps), ops := [], now := s.now + 1
      cur := Move.quiet } := by
  have start : step (s.asked o (Move.quiet :: Move.quiet :: Move.quiet :: rest)) = .next
      { s.asked o (Move.quiet :: Move.quiet :: rest) with
        phase := .pause (c :: ps), ops := [], cur := Move.quiet } := by
    rw [step_idle rfl, State.tick_of_quiet_move rfl]
    exact ho.starts _ hs
  exact steps_of_step start (steps_pause_and_mark (w := c :: ps) rfl rfl)

/-- The command is written, or not, with the operations that wait for its code. -/
theorem IsCommand.step_write (ho : IsCommand o c ps i a) {whole : Bool} {rest : List Move}
    (hp : s.phase = .issue (c :: ps)) (hs : s.st.commands = true) (hopen : s.tp.isOpen = true)
    (he : s.env = Move.accepting whole :: rest) :
    step s = .next (if whole
      then { s with
        frames := waitingFor i ++ s.frames, phase := .await a, env := rest
        cur := Move.accepting whole, tp := { s.tp with tx := s.tp.tx ++ c :: ps } }
      else { s with
        frames := waitingFor i ++ s.frames, phase := .exit .sendFailed, env := rest
        cur := Move.accepting whole
        now := s.now + deadline s.tp.wrTimeout (c :: ps).length }) := by
  have run : exec i s.tick = .next (State.send { s.tick with frames := waitingFor i ++ s.tick.frames }
      (c :: ps) .sendFailed (.await a)) :=
    (ho.writes _).trans (State.command_eq_next.mpr
      ⟨by simp [hp, Phase.isIssue], by simpa using hs, by simpa using hopen, rfl⟩)
  rw [step_issue hp (ho.decodes _), run, State.tick_of_accepting he, State.send_word_of_accepting rfl]

/-- One byte is read of an empty receive FIFO and the bytes the device sends with the read: silence
costs the read deadline (40_transport.md R134). -/
theorem step_await_sending {rsp : List Byte} {rest : List Move} (hp : s.phase = .await a)
    (hopen : s.tp.isOpen = true) (hr : s.tp.rx = []) (he : s.env = Move.sending rsp :: rest) :
    step s = .next { s with
      phase := .judge a (rsp.take 1), env := rest, cur := Move.sending rsp
      tp := { s.tp with rx := rsp.drop 1 }
      now := s.now + if rsp = [] then deadline s.tp.rdTimeout 1 else 0 } := by
  rw [step_await hp hopen, State.tick_of_sending he hopen]
  cases rsp <;>
    simp [State.readTo, State.received, State.readCount, State.afterRead, State.goto, hr,
      Move.sending, Move.quiet]

/-- A command that is accepted is answered: five steps lead to the judgement of the response. -/
theorem IsCommand.steps_accepted (ho : IsCommand o c ps i a) (hs : s.st.commands = true) (rsp : List Byte) :
    steps 5 (s.asked o (Move.exchange true rsp)) = .next
      { (s.asked o []).finished c (c :: ps) (rsp.drop 1) s.lastError
          (s.now + 1 + if rsp = [] then deadline s.tp.rdTimeout 1 else 0) with
        phase := .judge a (rsp.take 1), frames := waitingFor i, cur := Move.sending rsp } := by
  refine (steps_add (ho.steps_to_issue hs [Move.accepting true, Move.sending rsp]) 2).trans ?_
  refine steps_of_step (ho.step_write rfl hs rfl rfl) (steps_one ?_)
  rw [if_pos rfl]
  refine (step_await_sending rfl rfl rfl rfl).trans ?_
  simp only [State.asked, State.finished, List.append_nil]

end Exchange

/-! ### The end of an operation -/

/-- The machine that will be `u` once the code in `lastError` has been handed to the operations `fs`
that wait for it; the environment's last move was `m`. -/
def State.returning (u : State) (fs : List Frame) (m : Move) : State :=
  { u with phase := .ret u.lastError, frames := fs, cur := m }

/-- Nothing is in flight, nothing is asked for and the environment does nothing. -/
structure State.AtRest (u : State) : Prop where
  quiet : u.Quiet
  phase : u.phase = .idle
  frames : u.frames = []
  ops : u.ops = []
  cur : u.cur = Move.quiet

theorem State.finished_atRest (s : State) (o : Op) (c : Byte) (w rest : List Byte) (e : Code)
    (now : Nat) : ((s.asked o []).finished c w rest e now).AtRest :=
  ⟨⟨rfl, rfl⟩, rfl, rfl, rfl, rfl⟩

/-- With no operation waiting the worker has its result, and the machine stays at rest. -/
theorem State.AtRest.steps_returning (h : u.AtRest) (m : Move) (k : Nat) :
    steps (1 + k) (u.returning [] m) = .next u := by
  have back : step (u.returning [] m) = .next { u with
      phase := .idle, frames := [], cur := Move.quiet } := step_quiet h.quiet rfl
  have same : { u with phase := .idle, frames := [], cur := Move.quiet } = u := by
    rw [← h.phase, ← h.frames, ← h.cur]
  rw [same] at back
  exact (steps_add (steps_one back) k).trans (steps_idle h.quiet h.phase h.ops h.cur)

/-- A run that reaches the return within the steps it is given ends at rest. -/
theorem State.AtRest.steps_of_returning {v : State} {n N : Nat} {m : Move} (h : u.AtRest)
    (run : steps n v = .next (u.returning [] m)) (hn : n < N) : steps N v = .next u := by
  obtain ⟨k, rfl⟩ := Nat.exists_eq_add_of_lt hn
  rw [show n + k + 1 = n + (1 + k) by omega, steps_add run]
  exact h.steps_returning m k

/-- The operation that waits for the code goes on with it (60_exceptions.md R312). -/
theorem step_returning {f : Frame} {fs : List Frame} {m : Move} (hq : u.Quiet) :
    step (u.returning (f :: fs) m) = resume f u.lastError (u.returning fs Move.quiet) :=
  step_ret_quiet hq rfl rfl

/-- A command that is not accepted: five steps lead to the return of `SendFailed`. -/
theorem IsCommand.steps_unaccepted {o : Op} {c : Byte} {ps : List Byte} {i : Instr} {a : Await}
    (ho : IsCommand o c ps i a) (hs : s.st.commands = true) (rsp : List Byte) :
    steps 5 (s.asked o (Move.exchange false rsp)) = .next
      (((s.asked o []).finished c [] rsp .sendFailed
        (s.now + 1 + deadline s.tp.wrTimeout (c :: ps).length)).returning
          (waitingFor i) (Move.sending rsp)) := by
  refine (steps_add (ho.steps_to_issue hs [Move.accepting false, Move.sending rsp]) 2).trans ?_
  refine steps_of_step (ho.step_write rfl hs rfl rfl) (steps_one ?_)
  rw [if_neg (by decide), step_exit rfl, State.tick_of_sending rfl rfl]
  simp only [State.asked, State.finished, State.returning, State.ret, List.append_nil, List.nil_append]

/-- A state that has judged its response returns the code it found. -/
theorem State.tick_ret_quiet (hq : s.Quiet) (e : Code) :
    s.tick.ret e = State.returning { s with lastError := e } s.frames Move.quiet := by
  rw [State.tick_quiet hq]; rfl

/-! ### Responses judged (42_commands.md R176, R182, R183, R184) -/

section Judged

variable {a : Await} {b : Byte} {bs : List Byte}

theorem step_judge_silence (hp : s.phase = .judge a []) :
    step s = .next (s.tick.ret .readResponseFailed) :=
  step_eq_of_moved (by simp [State.fetch, hp, State.fetchResponse, State.noResponse])

theorem step_judge_byte {i : Instr} (hp : s.phase = .judge a (b :: bs))
    (hd : ∀ k, decode k a.ctx [b] = .instr i) : step s = exec i s.tick :=
  step_eq_exec (by simp [State.fetch, hp, State.fetchResponse, hd, orElse]) (by simp [hp])

theorem State.answer_of_judge {n : State} (hp : s.phase = .judge a bs) : s.answer a n = .next n :=
  State.answer_eq_next.mpr ⟨by simp [hp, Phase.judging], rfl⟩

/-- The code of a response of track selection (42_commands.md R176). -/
def trackCode (rsp : List Byte) : Code :=
  match rsp with
  | [] => .readResponseFailed
  | b :: _ => if b = 0x31 ∨ b = 0x32 then .ok else if b = 0x30 then .selectTrackError else .statusError

theorem step_judge_rspT (hp : s.phase = .judge .rspT bs) :
    step s = .next (s.tick.ret (trackCode bs)) := by
  cases bs with
  | nil => exact step_judge_silence hp
  | cons b rest =>
    have judged : ∀ e, s.tick.answer .rspT (s.tick.ret e) = .next (s.tick.ret e) := fun _ =>
      State.answer_of_judge hp
    rw [step_judge_byte hp (i := decodeRspT b) fun _ => rfl, decodeRspT, trackCode]
    by_cases moved : b = 0x31
    · rw [if_pos moved, if_pos (.inl moved)]
      exact judged .ok
    · by_cases already : b = 0x32
      · rw [if_neg moved, if_pos already, if_pos (.inr already)]
        exact judged .ok
      · rw [if_neg moved, if_neg already, if_neg (not_or.mpr ⟨moved, already⟩)]
        split
        · exact judged .selectTrackError
        · exact judged .statusError

/-- What the presence byte says (42_commands.md R182). -/
def presenceOf (b : Byte) : Presence := if b = 0x23 then .absent else if b = 0x31 then .present else .other

theorem step_judge_presence (hp : s.phase = .judge .diskPresence (b :: bs)) :
    step s = .next (s.tick.holdPresence (presenceOf b)) := by
  have judged : ∀ f, s.tick.answer .diskPresence (s.tick.holdPresence f)
      = .next (s.tick.holdPresence f) := fun _ => State.answer_of_judge hp
  rw [step_judge_byte hp (i := decodePresence b) fun _ => rfl, decodePresence, presenceOf]
  split
  · exact judged .absent
  · split
    · exact judged .present
    · exact judged .other

/-- A write-protect byte says protected by `1` and `#` (42_commands.md R182, R183). -/
def saysProtected (b : Byte) : Bool := b == 0x31 || b == 0x23

theorem exec_decodeProtect (b : Byte) (t : State) :
    exec (decodeProtect b) t = t.protectByte (saysProtected b) := by
  rw [decodeProtect, saysProtected]
  by_cases one : b = 0x31
  · simp only [one]; rfl
  · by_cases hash : b = 0x23
    · simp only [hash]; rfl
    · simp only [one, hash, beq_eq_false_iff_ne.mpr one, beq_eq_false_iff_ne.mpr hash]; rfl

theorem step_judge_protect {f : Presence} (hp : s.phase = .judge (.diskProtect f) (b :: bs)) :
    step s = .next (s.tick.finishCheckDisk f (saysProtected b)) := by
  rw [step_judge_byte hp (i := decodeProtect b) fun _ => rfl, exec_decodeProtect]
  simp [State.protectByte, hp]

theorem step_judge_wpByte (hp : s.phase = .judge .wpByte (b :: bs)) :
    step s = .next (s.tick.setProtect (saysProtected b) .ok) := by
  rw [step_judge_byte hp (i := decodeProtect b) fun _ => rfl, exec_decodeProtect]
  simp [State.protectByte, hp]

theorem step_judge_density (hp : s.phase = .judge .density (b :: bs)) :
    step s = .next (if b = 0x48 then s.tick.setDensity true
      else if b = 0x44 then s.tick.setDensity false else s.tick.ret .statusError) := by
  have judged : ∀ n : State, s.tick.answer .density n = .next n := fun _ => State.answer_of_judge hp
  rw [step_judge_byte hp (i := decodeDensity b) fun _ => rfl, decodeDensity]
  split
  · exact judged _
  · split
    · exact judged _
    · exact judged _

end Judged

/-! ### Operations that return the code of one response byte -/

/-- An exchange whose one response byte gives the code `code` ends with the return of that code, or of
`SendFailed`, after at most six steps. -/
theorem IsCommand.steps_to_code {o : Op} {c : Byte} {ps : List Byte} {i : Instr} {a : Await}
    {code : List Byte → Code} (ho : IsCommand o c ps i a)
    (judged : ∀ {t : State} {bs}, t.phase = .judge a bs → step t = .next (t.tick.ret (code bs)))
    (first : ∀ bs, code (bs.take 1) = code bs) (hs : s.st.commands = true) (accepted : Bool)
    (rsp : List Byte) :
    ∃ now, s.now + 1 ≤ now ∧ ∃ n ≤ 6, ∃ m, steps n (s.asked o (Move.exchange accepted rsp)) = .next
      (((s.asked o []).finished c (if accepted then c :: ps else []) (leftOver accepted 1 rsp)
        (if accepted then code rsp else .sendFailed) now).returning (waitingFor i) m) := by
  cases accepted with
  | false => exact ⟨_, Nat.le_add_right .., 5, by decide, _, ho.steps_unaccepted hs rsp⟩
  | true =>
    have judge := (steps_add (ho.steps_accepted hs rsp) 1).trans (steps_one (judged rfl))
    rw [State.tick_ret_quiet ⟨rfl, rfl⟩, first] at judge
    exact ⟨_, Nat.le_add_right .., 6, le_rfl, _, judge⟩

theorem responseCode_take_one (bs : List Byte) : responseCode (bs.take 1) = responseCode bs := by
  cases bs <;> rfl

theorem trackCode_take_one (bs : List Byte) : trackCode (bs.take 1) = trackCode bs := by
  cases bs <;> rfl

/-- Settles O24: the code of the exchange goes to `rewind`, which waits for it. -/
theorem rewindReturnsRewindFailure : Obligations.RewindReturnsRewindFailure := by
  intro s accepted rsp hs
  obtain ⟨now, later, n, hn, m, exchange⟩ :=
    isCommand_rewind.steps_to_code step_judge_rsp1 responseCode_take_one hs accepted rsp
  have mapped := (steps_add exchange 1).trans (steps_one (step_returning ⟨rfl, rfl⟩))
  exact ⟨now, later, (State.finished_atRest ..).steps_of_returning mapped (by omega)⟩

/-- The head selections and `diagnostics` end with the code of the command/response primitive, for
nothing waits for it. -/
theorem IsCommand.steps_unwaited {o : Op} {c : Byte} {i : Instr} (ho : IsCommand o c [] i .rsp1)
    (hi : waitingFor i = []) (hs : s.st.commands = true) (accepted : Bool) (rsp : List Byte) :
    ∃ now, s.now + 1 ≤ now ∧ steps 7 (s.asked o (Move.exchange accepted rsp))
      = .next ((s.asked o []).finished c (if accepted then [c] else []) (leftOver accepted 1 rsp)
          (commandCode accepted rsp) now) := by
  obtain ⟨now, later, n, hn, m, exchange⟩ :=
    ho.steps_to_code step_judge_rsp1 responseCode_take_one hs accepted rsp
  rw [hi] at exchange
  exact ⟨now, later, (State.finished_atRest ..).steps_of_returning exchange (by omega)⟩

/-- Settles O25: each of the three is one exchange for whose code nothing waits. -/
theorem headSelectAndDiagnosticsReturnTheCode : Obligations.HeadSelectAndDiagnosticsReturnTheCode := by
  intro s accepted rsp o c hs which
  obtain ⟨rfl, rfl⟩ | ⟨rfl, rfl⟩ | ⟨rfl, rfl⟩ := which
  · exact isCommand_head0.steps_unwaited rfl hs accepted rsp
  · exact isCommand_head1.steps_unwaited rfl hs accepted rsp
  · exact isCommand_diagnostics.steps_unwaited rfl hs accepted rsp

/-! ### `selectTrack` (42_commands.md R176) -/

/-- With nothing in flight and nothing asked for, a step is the environment's move. -/
theorem step_unasked (hp : s.phase = .idle) (ho : s.ops = []) : step s = .next s.tick := by
  simp [step_idle hp, State.nextOp, ho]

/-- Above 83 the operation has returned after two steps; in the four that follow the environment's
moves are made, and the bytes it sends stay in the receive FIFO. -/
theorem steps_selectTrack_out_of_range {n : Nat} (hs : s.st.commands = true) (hn : 83 < n)
    (accepted : Bool) (rsp : List Byte) :
    steps 6 (s.asked (.selectTrack n) (Move.exchange accepted rsp))
      = .next ((s.asked (.selectTrack n) []).finished s.lastCommand [] rsp .trackRangeError s.now) := by
  have start : step (s.asked (.selectTrack n) (Move.exchange accepted rsp)) = .next
      { s.asked (.selectTrack n) [Move.quiet, Move.quiet, Move.accepting accepted, Move.sending rsp] with
        lastError := .trackRangeError, phase := .ret .trackRangeError, ops := []
        cur := Move.quiet } := by
    rw [step_idle rfl, State.tick_of_quiet_move rfl]
    exact if_pos ⟨hs, hn⟩
  have back : step { s.asked (.selectTrack n)
        [Move.quiet, Move.quiet, Move.accepting accepted, Move.sending rsp] with
        lastError := .trackRangeError, phase := .ret .trackRangeError, ops := []
        cur := Move.quiet } = .next
      { s.asked (.selectTrack n) [Move.quiet, Move.accepting accepted, Move.sending rsp] with
        lastError := .trackRangeError, ops := [], cur := Move.quiet } := by
    rw [step_eq_of_moved rfl, State.tick_of_quiet_move rfl]
    rfl
  refine steps_of_step start (steps_of_step back ?_)
  refine steps_of_step (step_unasked rfl rfl) ?_
  rw [State.tick_of_quiet_move rfl]
  refine steps_of_step (step_unasked rfl rfl) ?_
  rw [State.tick_of_accepting rfl]
  refine steps_of_step (step_unasked rfl rfl) ?_
  rw [State.tick_of_sending rfl rfl]
  refine steps_of_step (step_unasked rfl rfl) ?_
  rw [State.tick_quiet ⟨rfl, rfl⟩]
  simp [steps, State.asked, State.finished]

/-- Settles O26: up to 83 one exchange for whose code nothing waits, above it no exchange. -/
theorem selectTrackReturnsItsCode : Obligations.SelectTrackReturnsItsCode := by
  intro s n accepted rsp hs
  refine ⟨fun inRange => ?_, fun out => steps_selectTrack_out_of_range hs out accepted rsp⟩
  obtain ⟨now, later, k, hk, m, exchange⟩ :=
    (isCommand_selectTrack inRange).steps_to_code step_judge_rspT trackCode_take_one hs accepted rsp
  exact ⟨now, later, (State.finished_atRest ..).steps_of_returning exchange (by omega)⟩

/-! ### Operations that read a second byte or set a cached flag -/

/-- One byte is read of what stands in the receive FIFO; silence costs the read deadline
(40_transport.md R134). -/
theorem step_await_quiet {a : Await} (hq : s.Quiet) (hp : s.phase = .await a)
    (hopen : s.tp.isOpen = true) :
    step s = .next { s with
      phase := .judge a (s.tp.rx.take 1), cur := Move.quiet
      tp := { s.tp with rx := s.tp.rx.drop 1 }
      now := s.now + if s.tp.rx = [] then deadline s.tp.rdTimeout 1 else 0 } := by
  rw [step_await hp hopen, State.tick_quiet hq]
  cases hr : s.tp.rx <;>
    simp [State.readTo, State.received, State.readCount, State.afterRead, State.goto, hr, Move.quiet]

/-- A code that is settled is returned. -/
theorem step_exit_quiet {e : Code} (hq : s.Quiet) (hp : s.phase = .exit e) :
    step s = .next (State.returning { s with lastError := e } s.frames Move.quiet) := by
  rw [step_exit hp, State.tick_ret_quiet hq]

theorem steps_judge_silence {a : Await} (hq : s.Quiet) (hp : s.phase = .judge a []) :
    steps 1 s = .next
      (State.returning { s with lastError := .readResponseFailed } s.frames Move.quiet) := by
  rw [steps_one (step_judge_silence hp), State.tick_ret_quiet hq]

/-- The byte of `checkWriteProtect` sets its flag, and `OK` is returned (42_commands.md R183). -/
theorem steps_judge_wpByte {w : Byte} {bs : List Byte} (hq : s.Quiet)
    (hp : s.phase = .judge .wpByte (w :: bs)) :
    steps 2 s = .next (State.returning { s with
      lastError := .ok, writeProtected := saysProtected w } s.frames Move.quiet) := by
  refine steps_of_step (step_judge_wpByte hp) (steps_one ?_)
  rw [State.tick_quiet hq]
  exact step_exit_quiet hq rfl

section Unwaited

variable {o : Op} {c : Byte} {ps : List Byte} {i : Instr} {a : Await} {N : Nat}

/-- A command that is not accepted ends its operation with `SendFailed`, if no other waits for it. -/
theorem IsCommand.ends_unaccepted (ho : IsCommand o c ps i a) (hi : waitingFor i = []) (hN : 5 < N)
    (hs : s.st.commands = true) (rsp : List Byte) :
    ∃ now, s.now + 1 ≤ now ∧ steps N (s.asked o (Move.exchange false rsp))
      = .next ((s.asked o []).finished c [] rsp .sendFailed now) := by
  have failed := ho.steps_unaccepted hs rsp
  rw [hi] at failed
  exact ⟨_, Nat.le_add_right .., (State.finished_atRest ..).steps_of_returning failed hN⟩

/-- A command that is not answered ends its operation with `ReadResponseFailed`, if no other waits for
it. -/
theorem IsCommand.ends_unanswered (ho : IsCommand o c ps i a) (hi : waitingFor i = []) (hN : 6 < N)
    (hs : s.st.commands = true) :
    ∃ now, s.now + 1 ≤ now ∧ steps N (s.asked o (Move.exchange true []))
      = .next ((s.asked o []).finished c (c :: ps) [] .readResponseFailed now) := by
  have silent := (steps_add (ho.steps_accepted hs []) 1).trans (steps_judge_silence ⟨rfl, rfl⟩ rfl)
  rw [hi] at silent
  exact ⟨_, Nat.le_add_right .., (State.finished_atRest ..).steps_of_returning silent hN⟩

end Unwaited

/-! ### `checkWriteProtect` (42_commands.md R183) -/

/-- The byte of `checkWriteProtect` sets the flag, and the operation ends with `OK`. -/
theorem steps_checkWriteProtect_answered (hs : s.st.commands = true) (w : Byte) (rest : List Byte) :
    ∃ now, s.now + 1 ≤ now ∧ steps 8 (s.asked .checkWriteProtect (Move.exchange true (w :: rest)))
      = .next { (s.asked .checkWriteProtect []).finished 0x24 [0x24] rest .ok now with
          writeProtected := saysProtected w } := by
  have judged := (steps_add (isCommand_checkWriteProtect.steps_accepted hs (w :: rest)) 2).trans
    (steps_judge_wpByte ⟨rfl, rfl⟩ rfl)
  exact ⟨_, Nat.le_add_right ..,
    State.AtRest.steps_of_returning ⟨⟨rfl, rfl⟩, rfl, rfl, rfl, rfl⟩ judged (by decide)⟩

/-! ### `checkDensity` (42_commands.md R184) -/

theorem commandCode_eq_ok {accepted : Bool} {rsp : List Byte} (h : commandCode accepted rsp = .ok) :
    accepted = true ∧ ∃ tail, rsp = 0x31 :: tail := by
  cases accepted with
  | false => cases h
  | true =>
    cases rsp with
    | nil => cases h
    | cons b tail =>
      by_cases hb : b = 0x31
      · exact ⟨rfl, tail, by rw [hb]⟩
      · have other : commandCode true (b :: tail) = if b = 0x30 then .error else .statusError :=
          if_neg hb
        rw [other] at h
        split at h <;> cases h

/-- `checkDensity` reads its density byte on `OK` only. -/
theorem step_returning_density {fs : List Frame} {m : Move} (hq : u.Quiet) :
    step (u.returning (.density :: fs) m) = .next (if u.lastError = .ok
      then { u with phase := .await .density, frames := fs, cur := Move.quiet }
      else u.returning fs Move.quiet) := by
  rw [step_returning hq, resume, State.afterDensity]
  split <;> rfl

/-- A code other than `OK` is what `checkDensity` returns. -/
theorem steps_checkDensity_failed (hs : s.st.commands = true) {accepted : Bool} {rsp : List Byte}
    (failed : commandCode accepted rsp ≠ .ok) :
    ∃ now, s.now + 1 ≤ now ∧ steps 11 (s.asked .checkDensity (Move.exchange accepted rsp))
      = .next ((s.asked .checkDensity []).finished 0x54 (if accepted then [0x54] else [])
          (leftOver accepted 1 rsp) (commandCode accepted rsp) now) := by
  obtain ⟨now, later, n, hn, m, exchange⟩ :=
    isCommand_checkDensity.steps_to_code step_judge_rsp1 responseCode_take_one hs accepted rsp
  have back := (steps_add exchange 1).trans (steps_one (step_returning_density ⟨rfl, rfl⟩))
  exact ⟨now, later, (State.finished_atRest ..).steps_of_returning
    (back.trans (congrArg _ (if_neg failed))) (by omega)⟩

/-- On `OK` a second byte is read. -/
theorem steps_checkDensity_to_density (hs : s.st.commands = true) (tail : List Byte) :
    ∃ now, s.now + 1 ≤ now ∧ ∃ n ≤ 8,
      steps n (s.asked .checkDensity (Move.exchange true (0x31 :: tail)))
        = .next { (s.asked .checkDensity []).finished 0x54 [0x54] (tail.drop 1) .ok now with
            phase := .judge .density (tail.take 1) } := by
  obtain ⟨now, later, n, hn, m, exchange⟩ :=
    isCommand_checkDensity.steps_to_code step_judge_rsp1 responseCode_take_one hs true (0x31 :: tail)
  have read := (steps_add exchange 2).trans
    (steps_of_step (step_returning_density ⟨rfl, rfl⟩)
      (steps_one (step_await_quiet ⟨rfl, rfl⟩ rfl rfl)))
  exact ⟨_, later.trans (Nat.le_add_right ..), n + 2, by omega, read⟩

/-- After the second byte `checkDensity` sets `isHDMode` for `H` and `D` and ends. -/
theorem steps_checkDensity_answered (hs : s.st.commands = true) (d : Byte) (rest : List Byte) :
    ∃ now, s.now + 1 ≤ now ∧ ∀ u, u = (fun e => (s.asked .checkDensity []).finished 0x54 [0x54] rest e
        now) → steps 11 (s.asked .checkDensity (Move.exchange true (0x31 :: d :: rest))) = .next (
          if d = 0x48 then { u .ok with isHDMode := true }
          else if d = 0x44 then { u .ok with isHDMode := false }
          else u .statusError) := by
  obtain ⟨now, later, n, hn, read⟩ := steps_checkDensity_to_density hs (d :: rest)
  refine ⟨now, later, ?_⟩
  rintro u rfl
  have judge := (steps_add read 1).trans (steps_one (step_judge_density rfl))
  have set : ∀ x, State.AtRest
      { (s.asked .checkDensity []).finished 0x54 [0x54] rest .ok now with isHDMode := x } := fun _ =>
    ⟨⟨rfl, rfl⟩, rfl, rfl, rfl, rfl⟩
  rw [State.tick_quiet ⟨rfl, rfl⟩] at judge
  split
  · next high =>
    rw [if_pos high] at judge
    exact (set true).steps_of_returning
      ((steps_add judge 1).trans (steps_one (step_exit_quiet ⟨rfl, rfl⟩ rfl))) (by omega)
  · next notHigh =>
    rw [if_neg notHigh] at judge
    split
    · next low =>
      rw [if_pos low] at judge
      exact (set false).steps_of_returning
        ((steps_add judge 1).trans (steps_one (step_exit_quiet ⟨rfl, rfl⟩ rfl))) (by omega)
    · next notLow =>
      rw [if_neg notLow] at judge
      exact (State.finished_atRest ..).steps_of_returning judge (by omega)

/-- Without a second byte `checkDensity` ends with `ReadResponseFailed`. -/
theorem steps_checkDensity_unanswered (hs : s.st.commands = true) :
    ∃ now, s.now + 1 ≤ now ∧ steps 11 (s.asked .checkDensity (Move.exchange true [0x31]))
      = .next ((s.asked .checkDensity []).finished 0x54 [0x54] [] .readResponseFailed now) := by
  obtain ⟨now, later, n, hn, read⟩ := steps_checkDensity_to_density hs []
  have silent := (steps_add read 1).trans (steps_judge_silence ⟨rfl, rfl⟩ rfl)
  exact ⟨now, later, (State.finished_atRest ..).steps_of_returning silent (by omega)⟩

/-- Settles O29: each check by the cases of what is accepted and sent. -/
theorem protectionAndDensityChecksSettleTheirFlags :
    Obligations.ProtectionAndDensityChecksSettleTheirFlags := by
  intro s accepted rsp hs
  constructor
  · cases accepted with
    | false =>
      obtain ⟨now, later, run⟩ :=
        isCommand_checkWriteProtect.ends_unaccepted rfl (N := 8) (by decide) hs rsp
      exact ⟨now, later, by rintro u rfl; exact run⟩
    | true =>
      cases rsp with
      | nil =>
        obtain ⟨now, later, run⟩ :=
          isCommand_checkWriteProtect.ends_unanswered rfl (N := 8) (by decide) hs
        exact ⟨now, later, by rintro u rfl; exact run⟩
      | cons w rest =>
        obtain ⟨now, later, run⟩ := steps_checkWriteProtect_answered hs w rest
        exact ⟨now, later, by rintro u rfl; exact run⟩
  · by_cases ok : commandCode accepted rsp = .ok
    · simp only [ok, ne_eq, not_true_eq_false, if_false]
      obtain ⟨rfl, tail, rfl⟩ := commandCode_eq_ok ok
      cases tail with
      | nil =>
        obtain ⟨now, later, run⟩ := steps_checkDensity_unanswered hs
        exact ⟨now, later, by rintro u rfl; exact run⟩
      | cons d rest =>
        obtain ⟨now, later, run⟩ := steps_checkDensity_answered hs d rest
        exact ⟨now, later, by rintro u rfl; exact run _ rfl⟩
    · obtain ⟨now, later, run⟩ := steps_checkDensity_failed hs ok
      exact ⟨now, later, by rintro u rfl; rw [if_pos ok]; exact run⟩

/-! ### `checkDisk` (42_commands.md R182) -/

/-- Unforced, `checkDisk` answers from the flag without I/O. -/
theorem steps_checkDisk_unforced (hs : s.st.commands = true) :
    steps 2 (s.asked (.checkDisk false) [])
      = .next ((s.asked (.checkDisk false) []).finished s.lastCommand [] []
          (presenceCode s.diskPresent) s.now) := by
  have start : step (s.asked (.checkDisk false) []) = .next
      (((s.asked (.checkDisk false) []).finished s.lastCommand [] []
        (presenceCode s.diskPresent) s.now).returning [] Move.quiet) := by
    rw [step_idle rfl, State.tick_quiet ⟨rfl, rfl⟩]
    refine (if_pos hs).trans ?_
    simp only [State.ret, State.asked, State.finished, State.returning, List.append_nil]
  exact (State.finished_atRest ..).steps_of_returning (steps_one start) (by decide)

/-- The presence byte is held, and the second byte read. -/
theorem steps_checkDisk_to_protect (hs : s.st.commands = true) (p : Byte) (tail : List Byte) :
    ∃ now, s.now + 1 ≤ now ∧ steps 7 (s.asked (.checkDisk true) (Move.exchange true (p :: tail)))
      = .next { (s.asked (.checkDisk true) []).finished 0x5E [0x5E] (tail.drop 1) s.lastError now with
          phase := .judge (.diskProtect (presenceOf p)) (tail.take 1) } := by
  have held : step _ = _ := step_judge_presence (s := { (s.asked (.checkDisk true) []).finished 0x5E
    [0x5E] tail s.lastError (s.now + 1) with
      phase := .judge .diskPresence [p], cur := Move.sending (p :: tail) }) rfl
  rw [State.tick_quiet ⟨rfl, rfl⟩] at held
  have read := (steps_add (isCommand_checkDisk.steps_accepted hs (p :: tail)) 2).trans
    (steps_of_step held (steps_one (step_await_quiet ⟨rfl, rfl⟩ rfl rfl)))
  exact ⟨_, Nat.le_add_right .., read⟩

/-- A legal presence byte and a protect byte: both flags are set and the first one's code returned. -/
theorem steps_finishCheckDisk {x : Bool} {w : Byte} {bs : List Byte} (hq : s.Quiet)
    (hp : s.phase = .judge (.diskProtect (if x then .present else .absent)) (w :: bs)) :
    steps 3 s = .next (State.returning { s with
      lastError := presenceCode x, diskPresent := x, writeProtected := saysProtected w }
        s.frames Move.quiet) := by
  have both := step_judge_protect hp
  have finish : s.tick.finishCheckDisk (if x then .present else .absent) (saysProtected w)
      = (s.tick.setDiskPresent x).goto (.protect (saysProtected w) (presenceCode x)) := by
    cases x <;> rfl
  rw [finish, State.tick_quiet hq] at both
  refine steps_of_step both (steps_of_step (step_quiet hq rfl) (steps_one ?_))
  exact step_exit_quiet hq rfl

theorem presenceOf_of_legal {p : Byte} (h : p = 0x31 ∨ p = 0x23) :
    presenceOf p = if p == 0x31 then .present else .absent := by
  obtain rfl | rfl := h <;> rfl

theorem presenceOf_of_other {p : Byte} (h : p ≠ 0x31 ∧ p ≠ 0x23) : presenceOf p = .other :=
  (if_neg h.2).trans (if_neg h.1)

/-- Without a second byte `checkDisk` ends with `ReadResponseFailed`, whatever the first one was. -/
theorem steps_checkDisk_one_byte (hs : s.st.commands = true) (p : Byte) :
    ∃ now, s.now + 1 ≤ now ∧ steps 11 (s.asked (.checkDisk true) (Move.exchange true [p]))
      = .next ((s.asked (.checkDisk true) []).finished 0x5E [0x5E] [] .readResponseFailed now) := by
  obtain ⟨now, later, read⟩ := steps_checkDisk_to_protect hs p []
  have silent := (steps_add read 1).trans (steps_judge_silence ⟨rfl, rfl⟩ rfl)
  exact ⟨now, later, (State.finished_atRest ..).steps_of_returning silent (by decide)⟩

/-- With both bytes read, another first byte leaves the cache, and a legal one sets both flags. -/
theorem steps_checkDisk_two_bytes (hs : s.st.commands = true) (p w : Byte) (rest : List Byte) :
    ∃ now, s.now + 1 ≤ now ∧ ∀ u, u = (fun e => (s.asked (.checkDisk true) []).finished 0x5E [0x5E]
        rest e now) → steps 11 (s.asked (.checkDisk true) (Move.exchange true (p :: w :: rest)))
      = .next (if p ≠ 0x31 ∧ p ≠ 0x23 then u .statusError
        else { u (if p = 0x31 then .ok else .noDiskInDrive) with
          diskPresent := p == 0x31, writeProtected := saysProtected w }) := by
  obtain ⟨now, later, read⟩ := steps_checkDisk_to_protect hs p (w :: rest)
  refine ⟨now, later, ?_⟩
  rintro u rfl
  split
  · next other =>
    rw [presenceOf_of_other other] at read
    have judge := (steps_add read 1).trans (steps_one (step_judge_protect rfl))
    rw [State.tick_quiet ⟨rfl, rfl⟩] at judge
    exact (State.finished_atRest ..).steps_of_returning judge (by decide)
  · next legal =>
    rw [presenceOf_of_legal (by tauto)] at read
    have judge := (steps_add read 3).trans (steps_finishCheckDisk ⟨rfl, rfl⟩ rfl)
    have code : presenceCode (p == 0x31) = if p = 0x31 then .ok else .noDiskInDrive := by
      simp [presenceCode]
    rw [code] at judge
    exact State.AtRest.steps_of_returning ⟨⟨rfl, rfl⟩, rfl, rfl, rfl, rfl⟩ judge (by decide)

/-- Settles O28: the forced check by the cases of what is accepted and sent. -/
theorem checkDiskSettlesTheCachedFlags : Obligations.CheckDiskSettlesTheCachedFlags := by
  intro s accepted rsp hs
  refine ⟨steps_checkDisk_unforced hs, ?_⟩
  cases accepted with
  | false =>
    obtain ⟨now, later, run⟩ := isCommand_checkDisk.ends_unaccepted rfl (N := 11) (by decide) hs rsp
    exact ⟨now, later, by rintro u rfl; exact run⟩
  | true =>
    match rsp with
    | [] =>
      obtain ⟨now, later, run⟩ := isCommand_checkDisk.ends_unanswered rfl (N := 11) (by decide) hs
      exact ⟨now, later, by rintro u rfl; exact run⟩
    | [p] =>
      obtain ⟨now, later, run⟩ := steps_checkDisk_one_byte hs p
      exact ⟨now, later, by rintro u rfl; exact run⟩
    | p :: w :: rest =>
      obtain ⟨now, later, run⟩ := steps_checkDisk_two_bytes hs p w rest
      exact ⟨now, later, by rintro u rfl; exact run _ rfl⟩

end Sys2Proof.Machine
end

section
/-! SUPPORT. The streamed read: what `WriteBit` and a run of it leave in the capture, the run that appends
the symbols of a data byte, and the run of empty polls that ends a read (43_streaming_read.md R203, R208;
45_mfm_decoder.md R237). -/

namespace Sys2Proof.Machine

variable {s : State}

/-! ### Capture bits after a write -/

/-- The mask of bit `k` has that bit alone (00_scope.md R11). -/
theorem bitOf_mask {k j : Nat} (hk : k < 8) (hj : j < 8) :
    bitOf ((0x80 : Byte) >>> k) j = decide (j = k) := by
  have all : ∀ k < 8, ∀ j < 8, bitOf ((0x80 : Byte) >>> k) j = decide (j = k) := by decide
  exact all k hk j hj

theorem bitOf_withBit {k j : Nat} (hk : k < 8) (hj : j < 8) (b : Byte) (x : Bool) :
    bitOf (withBit b k x) j = if j = k then x else bitOf b j := by
  have mask := bitOf_mask hk hj
  unfold bitOf at mask ⊢
  cases x with
  | false =>
    simp only [withBit, Bool.false_eq_true, if_false, BitVec.getMsbD_and, BitVec.getMsbD_not, mask]
    split <;> simp [*]
  | true =>
    simp only [withBit, if_true, BitVec.getMsbD_or, mask]
    split <;> simp [*]

/-- Inside the buffer `WriteBit` writes the bit at the cursor and leaves every other one
(45_mfm_decoder.md R237). -/
theorem writeBit_bitAt {cap : Capture} {c : Cursor} (hw : cap.buf.wf = true) (hb : c.bit < 8)
    (hc : c.linear < 8 * cap.size) (x : Bool) (j : Nat) :
    ({ cap with buf := (writeBit cap.size cap.buf c x).1 } : Capture).bitAt j
      = if j = c.linear then x else cap.bitAt j := by
  have linear : c.linear = 8 * c.pos + c.bit := rfl
  have inside : ¬ cap.size ≤ c.pos := by omega
  simp only [Capture.bitAt, writeBit, if_neg inside, Memory.get_set hw]
  by_cases hpos : j / 8 = c.pos
  · have same : j % 8 = c.bit ↔ j = c.linear := by omega
    simp only [hpos, if_true, bitOf_withBit hb (Nat.mod_lt j (by decide)), same]
  · have other : j ≠ c.linear := by omega
    simp only [hpos, other, if_false]

/-! ### Appending bits up to the capacity (43_streaming_read.md R203) -/

/-- A full buffer takes no bit. -/
theorem fillBits_of_full {size : Nat} {c : Cursor} (h : c.linear = 8 * size) (xs : List Bool)
    (buf : Memory) : fillBits size xs buf c = (buf, c) := by
  cases xs <;> simp [fillBits, h]

theorem fillBits_cons_of_room {size : Nat} {c : Cursor} (h : c.linear ≠ 8 * size) (x : Bool)
    (xs : List Bool) (buf : Memory) :
    fillBits size (x :: xs) buf c = fillBits size xs (writeBit size buf c x).1 (c.written size) := by
  simp [fillBits, h, writeBit_snd]

/-- Below the capacity the cursor advances by one bit. -/
theorem Cursor.written_spec {size : Nat} {c : Cursor} (hb : c.bit < 8) (h : c.linear < 8 * size) :
    (c.written size).linear = c.linear + 1 ∧ (c.written size).bit < 8 := by
  simpa only [writeBit_snd] using writeBit_cursor (buf := []) (x := false) hb h

/-- The cursor moves by the bits that have room. -/
theorem fillBits_linear {size : Nat} (xs : List Bool) {buf : Memory} {c : Cursor} (hb : c.bit < 8)
    (h : c.linear ≤ 8 * size) :
    (fillBits size xs buf c).2.linear = c.linear + min xs.length (8 * size - c.linear) := by
  induction xs generalizing buf c with
  | nil => simp [fillBits]
  | cons x xs ih =>
    by_cases full : c.linear = 8 * size
    · simp [fillBits_of_full full, full]
    · obtain ⟨moved, bit⟩ := Cursor.written_spec hb (by omega : c.linear < 8 * size)
      rw [fillBits_cons_of_room full, ih bit (by omega), moved, List.length_cons]
      omega

/-- The bits passed by the cursor are the first of the list; every other capture bit is as before. -/
theorem fillBits_bitAt (xs : List Bool) {cap : Capture} {c : Cursor} (hw : cap.buf.wf = true)
    (hb : c.bit < 8) (h : c.linear ≤ 8 * cap.size) (j : Nat) :
    ({ cap with buf := (fillBits cap.size xs cap.buf c).1 } : Capture).bitAt j
      = if c.linear ≤ j ∧ j < (fillBits cap.size xs cap.buf c).2.linear then
          xs.getD (j - c.linear) false
        else cap.bitAt j := by
  have unmoved : ¬ (c.linear ≤ j ∧ j < c.linear) := by omega
  induction xs generalizing cap c with
  | nil => exact (if_neg unmoved).symm
  | cons x xs ih =>
    by_cases full : c.linear = 8 * cap.size
    · rw [fillBits_of_full full]
      exact (if_neg unmoved).symm
    · have room : c.linear < 8 * cap.size := by omega
      obtain ⟨moved, bit⟩ := Cursor.written_spec hb room
      have inside : (c.written cap.size).linear ≤ 8 * cap.size := by omega
      have rest := ih (cap := { cap with buf := (writeBit cap.size cap.buf c x).1 })
        (writeBit_wf _ _ _ hw) bit inside (by omega)
      have passed := fillBits_linear (buf := (writeBit cap.size cap.buf c x).1) xs bit inside
      rw [writeBit_bitAt hw hb room, moved] at rest
      rw [fillBits_cons_of_room full]
      refine rest.trans ?_
      rcases Nat.lt_trichotomy j c.linear with below | here | above
      · rw [if_neg (by omega), if_neg (by omega), if_neg (by omega)]
      · subst here
        rw [if_neg (by omega), if_pos rfl, if_pos (by omega), Nat.sub_self, List.getD_cons_zero]
      · have index : j - c.linear = j - (c.linear + 1) + 1 := by omega
        have reached : c.linear + 1 ≤ j ↔ c.linear ≤ j := by omega
        rw [index, List.getD_cons_succ, if_neg (show j ≠ c.linear by omega)]
        simp only [reached]

/-! ### A data byte (43_streaming_read.md R203) -/

/-- The machine with the environment's parts of another: those which a step changes before it does
anything itself. -/
def State.withEnvOf (s e : State) : State :=
  { s with
    now := e.now, abortRequested := e.abortRequested, tp := e.tp, env := e.env, beyond := e.beyond
    cur := e.cur }

/-- The machine after one bit has been written and passed, with the bits `xs` left. -/
def State.bitWritten (s : State) (x : Bool) (xs : List Bool) : State :=
  { s with
    cap := { s.cap with buf := (writeBit s.cap.size s.cap.buf s.str.wcur x).1 }
    str := { s.str with wcur := s.str.wcur.written s.cap.size }
    phase := .stream (.symbols xs) }

/-- The machine after the bits `xs` have been appended as far as there is room: about to write the abort
byte if the buffer is full, and at the next byte of the chunk otherwise. -/
def State.appended (s : State) (xs : List Bool) : State :=
  { s with
    cap := { s.cap with buf := (fillBits s.cap.size xs s.cap.buf s.str.wcur).1 }
    str := { s.str with wcur := (fillBits s.cap.size xs s.cap.buf s.str.wcur).2 }
    phase := if (fillBits s.cap.size xs s.cap.buf s.str.wcur).2.linear = 8 * s.cap.size
      then .mark [0x78] else .stream .bytes }

/-- Where no bit is left, or none has room, what comes next is found in one step. -/
theorem State.nextSymbol_eq_appended {xs : List Bool} (h : s.written = 8 * s.cap.size ∨ xs = []) :
    s.nextSymbol xs = s.appended xs := by
  rcases s.nextSymbol_cases xs with ⟨full, next⟩ | ⟨room, rfl, next⟩ | ⟨x, rest, room, rfl, -⟩
  · have full' : s.str.wcur.linear = 8 * s.cap.size := full
    simp [next, State.appended, fillBits_of_full full', full', State.goto, Cmd.abort]
  · have room' : s.str.wcur.linear ≠ 8 * s.cap.size := room
    simp [next, State.appended, fillBits, room', State.gotoStream, State.goto]
  · simp [room] at h

/-- One more bit is written and then the others are appended. -/
theorem State.bitWritten_appended (room : s.str.wcur.linear ≠ 8 * s.cap.size) (x : Bool)
    (xs : List Bool) : (s.bitWritten x xs).appended xs = s.appended (x :: xs) := by
  simp only [State.appended, fillBits_cons_of_room room]
  rfl

/-- A place of the streamed read where no instruction is found: it looks at no byte and at no window. -/
theorem step_stream {k : StreamStep} (hp : s.phase = .stream k)
    (hk : ∀ t : State, t.fetchStream k = .moved (t.streamStep k)) : step s = s.tick.streamStep k :=
  step_eq_of_moved (by simp only [State.fetch, State.tick_fields, hp, hk])

/-- Such a place in a quiet environment. -/
theorem step_stream_quiet {k : StreamStep} {n : State} (hq : s.Quiet) (hp : s.phase = .stream k)
    (hk : ∀ t : State, t.fetchStream k = .moved (t.streamStep k))
    (hn : State.streamStep { s with cur := Move.quiet } k = .next n) : step s = .next n := by
  rw [step_stream hp hk, State.tick_quiet hq, hn]

/-- Before the abort byte was sent a byte of the chunk is a data byte (30_encoding.md R101). -/
theorem exec_streamData {b : Byte} (hs : s.st = .streaming) (hp : s.phase = .stream (.byte b))
    (ha : s.str.abortSent = false) :
    exec (.streamData b) s = .next (s.nextSymbol (streamBits s.par b)) :=
  if_pos ⟨hs, by rw [hp]; rfl, ha⟩

theorem step_data_byte {b : Byte} (hs : s.st = .streaming) (hp : s.phase = .stream (.byte b))
    (ha : s.str.abortSent = false) : step s = .next (s.tick.nextSymbol (streamBits s.par b)) := by
  have run : step s = exec (.streamData b) s.tick :=
    step_eq_exec (by simp [State.fetch, hp, State.fetchStream, ha, decode, orElse]) (by simp [hp])
  rw [run, exec_streamData (s := s.tick) hs hp ha]
  rfl

/-- Whatever the environment does in between, the two updates of one bit are `bitWritten`. -/
theorem State.advanceCursor_eq_bitWritten (s e e' : State) (x : Bool) (xs : List Bool) :
    ((((s.withEnvOf e).setCap { s.cap with
        buf := (writeBit s.cap.size s.cap.buf s.str.wcur x).1 }).gotoStream
      (.advance xs)).withEnvOf e').advanceCursor xs = (s.withEnvOf e').bitWritten x xs := by
  simp only [State.bitWritten, State.advanceCursor, State.withEnvOf, State.setCap, State.setStr,
    State.gotoStream, State.goto]

theorem step_advance {xs : List Bool} (hp : s.phase = .stream (.advance xs)) :
    step s = .next ((s.withEnvOf s.tick).advanceCursor xs) :=
  step_stream hp fun _ => rfl

/-- A bit that has room is written, and the next step moves the cursor past it. -/
theorem steps_write_bit {x : Bool} {xs : List Bool} (next : step s = .next (s.tick.nextSymbol (x :: xs)))
    (room : s.str.wcur.linear ≠ 8 * s.cap.size) :
    ∃ e, steps 2 s = .next ((s.withEnvOf e).bitWritten x xs) := by
  have write : s.tick.nextSymbol (x :: xs) = ((s.withEnvOf s.tick).setCap { s.cap with
      buf := (writeBit s.cap.size s.cap.buf s.str.wcur x).1 }).gotoStream (.advance xs) := if_neg room
  rw [write] at next
  have two := steps_of_step next (steps_one (step_advance rfl))
  rw [State.advanceCursor_eq_bitWritten] at two
  exact ⟨_, two⟩

/-- With no bit left, or no room, the run ends. -/
theorem steps_bits_end {xs : List Bool} (next : step s = .next (s.tick.nextSymbol xs))
    (h : s.str.wcur.linear = 8 * s.cap.size ∨ xs = []) :
    steps 1 s = .next ((s.withEnvOf s.tick).appended xs) := by
  rw [steps_one next, State.nextSymbol_eq_appended (s := s.tick) h]
  rfl

/-- From the place where the first of the bits `xs` is looked at: two steps for each bit that has room,
and the last step finds that there is none left, or no room. -/
theorem steps_append_bits (xs : List Bool) (next : step s = .next (s.tick.nextSymbol xs))
    (hb : s.str.wcur.bit < 8) (hc : s.str.wcur.linear ≤ 8 * s.cap.size) :
    ∃ e, steps (2 * min xs.length (8 * s.cap.size - s.str.wcur.linear) + 1) s
      = .next ((s.withEnvOf e).appended xs) := by
  induction xs generalizing s with
  | nil => exact ⟨_, by simpa using steps_bits_end next (.inr rfl)⟩
  | cons x xs ih =>
    by_cases full : s.str.wcur.linear = 8 * s.cap.size
    · exact ⟨_, by simpa [full] using steps_bits_end next (.inl full)⟩
    · obtain ⟨moved, bit⟩ := Cursor.written_spec hb (by omega : s.str.wcur.linear < 8 * s.cap.size)
      have inside : (s.str.wcur.written s.cap.size).linear ≤ 8 * s.cap.size := by omega
      obtain ⟨e, write⟩ := steps_write_bit next full
      obtain ⟨e', rest⟩ := ih (s := (s.withEnvOf e).bitWritten x xs)
        (step_stream (k := .symbols xs) rfl fun _ => rfl) bit inside
      have count : 2 * min (x :: xs).length (8 * s.cap.size - s.str.wcur.linear) + 1
          = 2 + (2 * min xs.length (8 * s.cap.size - (s.str.wcur.written s.cap.size).linear) + 1) := by
        rw [List.length_cons]; omega
      refine ⟨e', ?_⟩
      rw [count, steps_add write]
      exact rest.trans (congrArg _ (State.bitWritten_appended (s := s.withEnvOf e') full x xs))

/-- Settles O19: the next state of the data byte is `nextSymbol` of its symbols, case by case as stated;
the steps that follow run `fillBits`, whose cursor and bits are known. -/
theorem dataByteAppendsItsSymbols : Obligations.DataByteAppendsItsSymbols := by
  intro s b hs hp ha hw hb hc
  refine ⟨by simp [streamBits, symbolOf], exec_streamData hs hp ha, ?_⟩
  obtain ⟨e, run⟩ := steps_append_bits (streamBits s.par b) (step_data_byte hs hp ha) hb hc
  exact ⟨_, run, rfl, fillBits_wf _ _ _ hw, (fillBits_bounds _ hb hc).1, fillBits_linear _ hb hc,
    fillBits_bitAt _ hw hb hc, rfl⟩

/-! ### Empty polls (43_streaming_read.md R208) -/

/-- A read with nothing to receive costs its deadline (40_transport.md R134). -/
theorem State.readTo_of_silence (hr : s.tp.rx = []) {n : Nat} (hn : 0 < n) (next : List Byte → Phase) :
    s.readTo n next
      = { s with now := s.now + deadline s.tp.rdTimeout n, phase := next [] } := by
  have silent : s.readCount n = 0 := by simp [State.readCount, hr]
  simp only [State.readTo, State.received, State.afterRead, silent, List.take_zero, List.drop_zero,
    if_pos hn]
  rfl

theorem step_poll_of_silence (hq : s.Quiet) (hp : s.phase = .stream .poll) (ho : s.tp.isOpen = true)
    (hr : s.tp.rx = []) :
    step s = .next { s with
      cur := Move.quiet, now := s.now + deadline s.tp.rdTimeout 64, phase := .stream (.chunk []) } := by
  have silence := State.readTo_of_silence (s := { s with cur := Move.quiet }) (n := 64) hr (by decide)
    fun bs => .stream (.chunk bs)
  exact step_stream_quiet hq hp (fun _ => rfl) ((if_pos ho).trans (congrArg _ silence))

/-- In a quiet environment with nothing to receive, from the top of the loop and with no abort byte to
write, four steps count one empty poll; the 30th ends the read. -/
theorem steps_empty_poll (hq : s.Quiet) (hp : s.phase = .stream .top) (ho : s.tp.isOpen = true)
    (hr : s.tp.rx = []) (ha : s.abortRequested = false ∨ s.str.abortSent = true) :
    ∃ now, steps 4 s = .next { s with
      cur := Move.quiet, now := now
      str := { s.str with nStall := s.str.nStall + 1, chunk := [] }
      phase := .stream (if 30 ≤ s.str.nStall + 1 then .stalled else .top) } := by
  have top : step s = .next { s with cur := Move.quiet, phase := .stream .poll } :=
    step_stream_quiet hq hp (fun _ => rfl) (by
      rcases ha with ha | ha <;> simp [State.streamStep, State.streamTop, ha, State.gotoStream, State.goto])
  have poll := step_poll_of_silence (s := { s with cur := Move.quiet, phase := .stream .poll })
    hq rfl ho hr
  have chunk : step { s with
      cur := Move.quiet, now := s.now + deadline s.tp.rdTimeout 64, phase := .stream (.chunk []) }
      = .next { s with
        cur := Move.quiet, now := s.now + deadline s.tp.rdTimeout 64
        str := { s.str with chunk := [] }, phase := .stream .got } :=
    step_stream_quiet hq rfl (fun _ => rfl) rfl
  refine ⟨s.now + deadline s.tp.rdTimeout 64, ?_⟩
  refine steps_of_step top (steps_of_step poll (steps_of_step chunk (steps_one ?_)))
  exact step_stream_quiet hq rfl (fun _ => rfl) rfl

/-- As many empty polls as are left until the 30th (`k`, and the 30th itself) end the loop. -/
theorem steps_empty_polls (k : Nat) (hq : s.Quiet) (hp : s.phase = .stream .top)
    (ho : s.tp.isOpen = true) (hr : s.tp.rx = [])
    (ha : s.abortRequested = false ∨ s.str.abortSent = true) (hk : s.str.nStall + k = 29) :
    ∃ now, steps (4 * (k + 1)) s = .next { s with
      cur := Move.quiet, now := now
      str := { s.str with nStall := 30, chunk := [] }, phase := .stream .stalled } := by
  induction k generalizing s with
  | zero =>
    obtain ⟨now, last⟩ := steps_empty_poll hq hp ho hr ha
    have count : s.str.nStall + 1 = 30 := by omega
    rw [count] at last
    exact ⟨now, last⟩
  | succ k ih =>
    obtain ⟨now, one⟩ := steps_empty_poll hq hp ho hr ha
    rw [if_neg (by omega)] at one
    obtain ⟨now', rest⟩ := ih (s := { s with
      cur := Move.quiet, now := now, phase := .stream .top
      str := { s.str with nStall := s.str.nStall + 1, chunk := [] } })
      hq rfl ho hr ha (by simp only; omega)
    refine ⟨now', ?_⟩
    rw [show 4 * (k + 1 + 1) = 4 + 4 * (k + 1) by omega, steps_add one]
    exact rest

/-- The 30th empty poll clears the flag and leaves `Streaming` for the forced check. -/
theorem steps_stalled (hq : s.Quiet) (hp : s.phase = .stream .stalled) :
    steps 2 s = .next { s with
      st := .readEnabled, abortRequested := false, cur := Move.quiet
      frames := .stalled :: s.frames, phase := .pause [0x5E] } := by
  have flag : step s = .next { s with
      abortRequested := false, cur := Move.quiet, phase := .stream .stalledState } :=
    step_stream_quiet hq hp (fun _ => rfl) rfl
  exact steps_of_step flag (steps_one (step_stream_quiet hq rfl (fun _ => rfl) rfl))

/-- Settles O32: the polls that are left by induction, then the two steps of `stalled`; the check's code
is dropped. -/
theorem thirtyEmptyPollsEndTheRead : Obligations.ThirtyEmptyPollsEndTheRead := by
  refine ⟨fun s _ hp ho hq hr hn ha => ?_, fun s c rest hp hf => ?_⟩
  · obtain ⟨k, hk⟩ : ∃ k, s.str.nStall + k = 29 := ⟨29 - s.str.nStall, by omega⟩
    obtain ⟨now, polls⟩ := steps_empty_polls k hq hp ho hr ha hk
    refine ⟨now, ?_⟩
    rw [show 30 - s.str.nStall = k + 1 by omega, steps_add polls]
    exact steps_stalled hq rfl
  · have back : s.tick.fetch = .moved (resume .stalled c (s.tick.pop rest)) := by
      simp [State.fetch, hp, State.handBack, hf]
    rw [step_eq_of_moved back]
    rfl

end Sys2Proof.Machine
end

section
/-! SUPPORT. The final status byte of a track write: the code of each byte, and its row run in the exchange
that awaits it (44_track_write.md R226). -/

namespace Sys2Proof.Machine

variable {s : State} {bs : List Byte}

/-- The code of the final status byte of a track write (44_track_write.md R226). -/
def writeStatusCode (b : Byte) : Code :=
  if b = 0x31 then .ok else if b = 0x58 then .writeTimeout
  else if b = 0x59 then .framingError else if b = 0x5A then .serialOverrun
  else .statusError

/-- A response whose effect is to return a code answers so in the exchange that awaits it. -/
theorem State.answer_ret_of_judge {a : Await} (hp : s.phase = .judge a bs) (c : Code) :
    s.answer a (s.ret c) = .next (s.ret c) :=
  State.answer_of_judge hp

/-- The row a status byte decodes to returns the byte's code, row by row of the decoder. -/
theorem exec_decodeRspW (hp : s.phase = .judge .rspW bs) (b : Byte) :
    exec (decodeRspW b) s = .next (s.ret (writeStatusCode b)) := by
  have judged := State.answer_ret_of_judge hp
  rw [decodeRspW, writeStatusCode]
  split
  · exact judged .ok
  · split
    · exact judged .writeTimeout
    · split
      · exact judged .framingError
      · split
        · exact judged .serialOverrun
        · exact judged .statusError

/-- Settles O16: each of the five rows answers in the exchange that awaits it, and every byte decodes to
the row of its code. -/
theorem writeStatusByteReturnsItsCode : Obligations.WriteStatusByteReturnsItsCode := by
  intro s bs hp
  have judged := State.answer_ret_of_judge hp
  exact ⟨judged .ok, judged .writeTimeout, judged .framingError, judged .serialOverrun,
    fun _ => judged .statusError,
    fun _ b => ⟨decodeRspW b, writeStatusCode b, rfl, exec_decodeRspW hp b, rfl⟩⟩

end Sys2Proof.Machine
end

section
/-! SUPPORT. The decoder's operations by themselves: the CRC register and its residue, runs of bits
written and read, clock-bit removal, insertion of a sector, the end of the scan, and the three address
marks (45_mfm_decoder.md R237 to R259). -/

namespace Sys2Proof.Machine

/-! ### CRC16 (45_mfm_decoder.md R242, R244) -/

/-- The polynomial is odd, so the bit shifted out is read off the lowest bit of the result. -/
theorem crcBit_getLsbD_zero (c : Half) : (crcBit c).getLsbD 0 = c.msb := by
  have odd : Config.crcPoly.getLsbD 0 = true := by decide
  unfold crcBit
  split <;> simp [*]

/-- No two values of the CRC register are shifted to the same one. -/
theorem crcBit_injective : Function.Injective crcBit := by
  intro c d same
  have msb : c.msb = d.msb := by rw [← crcBit_getLsbD_zero, same, crcBit_getLsbD_zero]
  have shifted : c <<< 1 = d <<< 1 := by
    unfold crcBit at same
    rw [msb] at same
    split at same
    · exact (BitVec.xor_left_inj _).mp same
    · exact same
  rw [BitVec.msb_eq_decide, BitVec.msb_eq_decide, decide_eq_decide] at msb
  bv_omega

/-- No more do several shifts. -/
theorem crcBits_injective (n : Nat) : Function.Injective (crcBits n) := by
  induction n with
  | zero => exact Function.injective_id
  | succ n ih => exact ih.comp crcBit_injective

/-- A value that loses no bit in `n` shifts is shifted as it is. -/
theorem crcBits_of_small {n : Nat} {c : Half} (h : c.toNat * 2 ^ n < 2 ^ 16) :
    crcBits n c = c <<< n := by
  induction n generalizing c with
  | zero => simp [crcBits]
  | succ n ih =>
    have once : 2 * c.toNat * 2 ^ n < 2 ^ 16 := by rwa [Nat.mul_comm 2, Nat.mul_assoc, ← Nat.pow_succ']
    have low : 2 * c.toNat < 2 ^ 16 := (Nat.le_mul_of_pos_right _ (Nat.two_pow_pos n)).trans_lt once
    have doubled : (c <<< 1).toNat = 2 * c.toNat := by bv_omega
    have msb : c.msb = false := by rw [BitVec.msb_eq_decide]; exact decide_eq_false (by omega)
    have shift : crcBit c = c <<< 1 := by simp [crcBit, msb]
    rw [crcBits, shift, ih (by rwa [doubled]), Nat.add_comm n 1, BitVec.shiftLeft_add]

/-- A byte clears the CRC register exactly if it is what stands in the high half, with nothing below. -/
theorem crcByte_eq_zero {c : Half} {b : Byte} : crcByte c b = 0 ↔ c = b.setWidth 16 <<< 8 :=
  have zero : crcBits 8 0 = 0 := by decide
  ((crcBits_injective 8).eq_iff' zero).trans BitVec.xor_eq_zero_iff

/-- The two bytes of a stored CRC share no bit. -/
theorem storedCrc_eq_xor (hi lo : Byte) :
    storedCrc hi lo = (hi.setWidth 16 <<< 8) ^^^ lo.setWidth 16 := by
  ext i
  by_cases low : i < 8
  · simp [storedCrc, low]
  · simp [storedCrc, BitVec.getLsbD_of_ge lo i (by omega)]

/-- A byte moves a value to the high half exactly if the register holds the byte above that value. -/
theorem crcByte_eq_shift {c : Half} {hi lo : Byte} :
    crcByte c hi = lo.setWidth 16 <<< 8 ↔ storedCrc hi lo = c := by
  have small : (lo.setWidth 16).toNat * 2 ^ 8 < 2 ^ 16 := by
    rw [BitVec.toNat_setWidth]; omega
  refine ((crcBits_injective 8).eq_iff' (crcBits_of_small small)).trans ?_
  rw [storedCrc_eq_xor]
  constructor
  · intro h
    simp [← h, BitVec.xor_comm c]
  · rintro rfl
    simp [BitVec.xor_comm _ (lo.setWidth 16)]

/-- The residue law: the low byte clears what the high byte has moved up. -/
theorem crc16_append_eq_zero (bs : List Byte) (hi lo : Byte) :
    crc16 (bs ++ [hi, lo]) = 0 ↔ storedCrc hi lo = crc16 bs := by
  have two : crc16 (bs ++ [hi, lo]) = crcByte (crcByte (crc16 bs) hi) lo := by
    simp [crc16, List.foldl_append]
  rw [two, crcByte_eq_zero, crcByte_eq_shift]

/-- Settles O45: the listed values are computed, and the residue law holds for every message. -/
theorem crcOfAValidRecordIsZero : Obligations.CrcOfAValidRecordIsZero := by
  refine ⟨?_, ?_, ?_, ?_, ?_, ?_, ?_, ?_, ?_, crc16_append_eq_zero⟩ <;> decide +kernel

/-! ### Runs of bits written and read (45_mfm_decoder.md R237 to R239) -/

/-- With room for all of them, writing bits is appending them. -/
theorem writeBits_eq_fillBits {size : Nat} (xs : List Bool) {buf : Memory} {c : Cursor} (hb : c.bit < 8)
    (room : c.linear + xs.length ≤ 8 * size) : writeBits size xs buf c = fillBits size xs buf c := by
  induction xs generalizing buf c with
  | nil => rfl
  | cons x xs ih =>
    rw [List.length_cons] at room
    obtain ⟨moved, bit⟩ := Cursor.written_spec hb (by omega : c.linear < 8 * size)
    rw [fillBits_cons_of_room (by omega), writeBits, writeBit_snd]
    exact ih bit (by omega)

/-- The bits written stand from the cursor on, and every other one is as before. -/
theorem writeBits_bitAt (xs : List Bool) {cap : Capture} {c : Cursor} (hw : cap.buf.wf = true)
    (hb : c.bit < 8) (room : c.linear + xs.length ≤ 8 * cap.size) (j : Nat) :
    ({ cap with buf := (writeBits cap.size xs cap.buf c).1 } : Capture).bitAt j
      = if c.linear ≤ j ∧ j < c.linear + xs.length then xs.getD (j - c.linear) false
        else cap.bitAt j := by
  have inside : c.linear ≤ 8 * cap.size := by omega
  have all : min xs.length (8 * cap.size - c.linear) = xs.length := by omega
  rw [writeBits_eq_fillBits xs hb room, fillBits_bitAt xs hw hb inside, fillBits_linear xs hb inside, all]

/-- Inside the buffer `ReadBit` gives the bit the cursor denotes (45_mfm_decoder.md R238). -/
theorem readBit_eq_bitAt {cap : Capture} {c : Cursor} (hb : c.bit < 8) (hc : c.linear < 8 * cap.size) :
    readBit cap.size cap.buf c = some (cap.bitAt c.linear, c.advance) := by
  have linear : c.linear = 8 * c.pos + c.bit := rfl
  have pos : c.linear / 8 = c.pos := by omega
  have bit : c.linear % 8 = c.bit := by omega
  rw [readBit, if_neg (by omega), Capture.bitAt, pos, bit]

/-- Bits read one after the other are those at the linear indices from the cursor on. -/
theorem readBits_eq_bitAt (n : Nat) {cap : Capture} {c : Cursor} (hb : c.bit < 8)
    (room : c.linear + n ≤ 8 * cap.size) :
    (readBits cap.size n cap.buf c).map Prod.fst = some ((List.range' c.linear n).map cap.bitAt) := by
  induction n generalizing c with
  | zero => rfl
  | succ n ih =>
    obtain ⟨moved, bit⟩ := Cursor.advance_spec hb
    have rest := ih bit (by omega)
    rw [moved, Option.map_eq_some_iff] at rest
    obtain ⟨⟨xs, c'⟩, read, rfl⟩ := rest
    simp [readBits, readBit_eq_bitAt hb (by omega : c.linear < 8 * cap.size), read, List.range'_succ]

/-- Settles O46: the capture bits after the writes are known, and the reads give capture bits. -/
theorem bitsWrittenAreBitsRead : Obligations.BitsWrittenAreBitsRead := by
  intro size buf c xs hw hb room
  have written := writeBits_bitAt xs (cap := { buf := buf, size := size, bitLength := 0 }) hw hb room
  have read := readBits_eq_bitAt xs.length
    (cap := { buf := (writeBits size xs buf c).1, size := size, bitLength := 0 }) hb room
  refine ⟨read.trans (congrArg some (List.ext_getElem (by simp) fun i hi hx => ?_)), fun i outside => ?_⟩
  · simp [written, hx]
  · exact (written i).trans (if_neg (by simp only [Cursor.linear]; omega))

/-! ### Clock-bit removal (45_mfm_decoder.md R243) -/

/-- Bits pushed into a byte from below, the last one lowest. -/
theorem getLsbD_pushed (bit : Nat → Bool) (n : Nat) {i : Nat} (hi : i < 8) :
    ((List.range n).foldl (fun (acc : Byte) k => (acc <<< 1) ||| (if bit k then 1 else 0)) 0).getLsbD i
      = (decide (i < n) && bit (n - 1 - i)) := by
  induction n generalizing i with
  | zero => simp
  | succ n ih =>
    have lowest : (if bit n then (1 : Byte) else 0).getLsbD i = (bit n && decide (i = 0)) := by
      cases bit n <;> simp
    rw [List.range_succ, List.foldl_append, List.foldl_cons, List.foldl_nil, BitVec.getLsbD_or,
      BitVec.getLsbD_shiftLeft, lowest]
    cases i with
    | zero => simp
    | succ i =>
      have index : n - 1 - i = n - (i + 1) := by omega
      rw [show i + 1 - 1 = i from rfl, ih (by omega : i < 8)]
      simp [hi, index]

/-- Bit `k` of such a byte, the most significant first, is the odd bit at `2 k + 1`. -/
theorem oddByte_getMsbD (bit : Nat → Bool) (s : Nat) {k : Nat} (hk : k < 8) :
    (oddByte bit s).getMsbD k = bit (s + 2 * k + 1) := by
  have order : 8 - 1 - (8 - 1 - k) = k := by omega
  rw [BitVec.getMsbD, oddByte, getLsbD_pushed (fun k => bit (s + 2 * k + 1)) 8 (by omega), order,
    decide_eq_true (by omega : 8 - 1 - k < 8), decide_eq_true hk, Bool.true_and, Bool.true_and]

/-- Settles O47: byte `j` is `oddByte` at `s + 16 j`, and the call hands out `Extract`'s bytes where every
bit is there. -/
theorem extractTakesTheOddBits : Obligations.ExtractTakesTheOddBits := by
  refine ⟨fun cap s n => ⟨cap.extract_length s n, fun j k hj hk =>
    ⟨_, cap.extract_getElem? hj, oddByte_getMsbD _ _ hk⟩⟩, fun s a n rest hp ho h0 h1 => ?_⟩
  obtain ⟨_, -, all, run⟩ := State.startExtract_spec { s.tick with ops := rest } a n
  obtain rfl := all h0 h1
  have start : s.tick.nextOp = startOp (.extract a n) { s.tick with ops := rest } := by
    simp [State.nextOp, ho]
  rw [step_idle hp, start]
  exact run

/-! ### Sector insertion (45_mfm_decoder.md R255) -/

/-- Settles O48: `Insert` writes the one key, or nothing. -/
theorem insertKeepsTheBetterCopy : Obligations.InsertKeepsTheBetterCopy := by
  intro trk r k bytes err _
  refine ⟨fun above => if_pos above, fun inside => ?_⟩
  rw [Track.insertSector, if_neg (show ¬ Config.maxSector < r from Nat.not_lt.mpr inside)]
  cases there : trk.get (r - 1) with
  | none => exact Track.get_set ..
  | some old =>
    by_cases better : err < old.errorCount
    · simp [better, BitVec.lt_def.mp better, Track.get_set]
    · have kept : ¬ err.toNat < old.errorCount.toNat := better
      by_cases key : k = r - 1 <;> simp [better, kept, key, there]

/-! ### The end of the scan (45_mfm_decoder.md R257 to R259) -/

/-- `fill` leaves every entry, and a missing key has a filler exactly if it is one of the `n` from `k` on. -/
theorem Track.get_fill (n k : Nat) (trk : Track) (j : Nat) :
    (Track.fill n k trk).get j =
      match trk.get j with
      | some e => some e
      | none => if k ≤ j ∧ j < k + n then some Sector.filler else none := by
  induction n generalizing k trk with
  | zero =>
    rw [if_neg (by omega)]
    cases h : trk.get j <;> simp [Track.fill, h]
  | succ n ih =>
    rw [Track.fill, ih]
    by_cases here : j = k
    · subst here
      cases there : trk.get j <;> simp [Track.get_set, there]
    · have next : (k + 1 ≤ j ∧ j < k + 1 + n) ↔ (k ≤ j ∧ j < k + (n + 1)) := by omega
      simp only [next]
      cases there : trk.get k <;> simp [Track.get_set, here]

/-- Settles O49: `fill` says what every key holds, and keeps the keys rising. -/
theorem finishFillsAndCounts : Obligations.FinishFillsAndCounts := by
  refine ⟨fun d => ?_, fun d hw => ⟨fun k => ?_, Track.fill_wf _ _ hw, List.countP_eq_length_filter⟩⟩
  · rw [Decoder.finish, gapFlag, Bool.and_eq_true, decide_eq_true_iff, decide_eq_true_iff]
    rfl
  · have range : (0 ≤ k ∧ k < 0 + d.expected) ↔ k < d.expected := by omega
    rw [Decoder.finish, Track.get_fill]
    simp only [range]
    rfl

/-! ### The address marks (45_mfm_decoder.md R245 to R256) -/

variable {s : State}

/-- Where a window is being tested a match replaces the decoder's registers and nothing else. -/
theorem State.onMatch_of_full (hp : s.phase = .scan) (ht : 63 ≤ s.dec.t) (d : Decoder) :
    s.onMatch d = .next { s with dec := d } :=
  if_pos (by simp [State.testing, hp, Decoder.full, Config.srWidth, ht])

/-- Settles O20: the action of an index mark is this update of the decoder. -/
theorem indexMarkForgetsTheGapStart : Obligations.IndexMarkForgetsTheGapStart :=
  fun _ hp ht => State.onMatch_of_full hp ht _

/-- A gap sample, register by register. -/
theorem Decoder.gapSample_eq (d : Decoder) (s : Nat) :
    d.gapSample s = { d with
      gapTotal := match d.prevEnd with
        | none => d.gapTotal
        | some e => if e ≤ s then d.gapTotal + (s - e) / 16 else d.gapTotal
      numGaps := match d.prevEnd with
        | none => d.numGaps
        | some e => if e ≤ s then d.numGaps + 1 else d.numGaps
      prevEnd := none } := by
  rw [Decoder.gapSample]
  cases ended : d.prevEnd with
  | none => exact congrArg (fun e => { d with prevEnd := e }) ended
  | some e => by_cases after : e ≤ s <;> simp [after]

/-- The error of a record whose stored CRC is not its own. -/
theorem errorIf_not_crcValid (rec : List Byte) (n : Nat) :
    errorIf (!crcValid rec n)
      = if crc16 (rec.take n) = storedCrc (rec.getD n 0) (rec.getD (n + 1) 0) then 0 else 1 := by
  simp [errorIf, crcValid]

/-- The errors of a header, one by one (45_mfm_decoder.md R249). -/
theorem headerErrors_eq (rec : List Byte) (c h : Nat) :
    headerErrors rec c h
      = (if crc16 (rec.take 8) = storedCrc (rec.getD 8 0) (rec.getD 9 0) then 0 else 1)
        + (if (rec.getD 6 0).toNat < 1 then 1 else 0)
        + (if (rec.getD 4 0).toNat ≠ c then 1 else 0)
        + (if (rec.getD 5 0).toNat ≠ h then 1 else 0) := by
  rw [headerErrors, errorIf_not_crcValid]
  simp only [errorIf, beq_iff_eq, bne_iff_ne, Nat.lt_one_iff]

/-- Settles O21: the gap sample and the latched header, register by register. -/
theorem idMarkLatchesItsHeader : Obligations.IdMarkLatchesItsHeader := by
  intro s hp ht
  refine (State.onMatch_of_full hp ht _).trans ?_
  rw [Decoder.onIdam, Decoder.gapSample_eq, Decoder.latch, headerErrors_eq]
  rfl

/-- A size code above 7 drops the record (45_mfm_decoder.md R253). -/
theorem Decoder.dataRecord_of_large {d : Decoder} (large : 7 < d.hdr.n) (cap : Capture) (s : Nat) :
    d.dataRecord cap s = { d with headerFound := false, prevEnd := none } :=
  if_pos large

/-- A record of a size code within the limit is inserted under its header's sector number
(45_mfm_decoder.md R254 to R256). -/
theorem Decoder.dataRecord_of_size {d : Decoder} (size : d.hdr.n ≤ 7) (cap : Capture) (s : Nat) :
    d.dataRecord cap s = { d with
      trk := d.trk.insertSector d.hdr.r
        (((cap.extract s (4 + 2 ^ (7 + d.hdr.n) + 2)).drop 4).take (2 ^ (7 + d.hdr.n)))
        (d.hdrErr +
          if crc16 ((cap.extract s (4 + 2 ^ (7 + d.hdr.n) + 2)).take (4 + 2 ^ (7 + d.hdr.n)))
              = storedCrc ((cap.extract s (4 + 2 ^ (7 + d.hdr.n) + 2)).getD (4 + 2 ^ (7 + d.hdr.n)) 0)
                ((cap.extract s (4 + 2 ^ (7 + d.hdr.n) + 2)).getD (4 + 2 ^ (7 + d.hdr.n) + 1) 0) then 0 else 1)
      prevEnd := some (s + 16 * (4 + 2 ^ (7 + d.hdr.n) + 2))
      headerFound := false } := by
  rw [← errorIf_not_crcValid]
  exact if_neg (Nat.not_lt.mpr size)

/-- A data mark is a data record for the latched header, or for the guessed one. -/
theorem exec_syncDam_of_full (hp : s.phase = .scan) (ht : 63 ≤ s.dec.t) :
    exec .syncDam s = .next (s.setDec
      ((if s.dec.headerFound then s.dec else s.dec.synthesize s.par).dataRecord s.cap s.dec.start)) := by
  refine (State.onMatch_of_full hp ht _).trans ?_
  rw [Decoder.onDam, apply_ite (Decoder.dataRecord · s.cap s.dec.start)]
  rfl

/-- Settles O22: the size code of the record's header decides between the drop and the insertion. -/
theorem dataMarkStoresItsSector : Obligations.DataMarkStoresItsSector := by
  intro s hp ht
  have run := exec_syncDam_of_full hp ht
  refine ⟨_, rfl, fun large => run.trans ?_, fun size => run.trans ?_⟩
  · exact congrArg (Host.Outcome.next <| s.setDec ·) (Decoder.dataRecord_of_large large ..)
  · exact congrArg (Host.Outcome.next <| s.setDec ·) (Decoder.dataRecord_of_size size ..)

end Sys2Proof.Machine
end

section
/-! SUPPORT. The encoder and the decoder undo each other, context by context (30_encoding.md sections 2 to 5
and 8). -/

namespace Sys2Proof

/-! ### Bytes as one number (30_encoding.md R111) -/

theorem joinBytes_cons (b : Byte) (bs : List Byte) :
    joinBytes (b :: bs) = b.toNat * 256 ^ bs.length + joinBytes bs := by
  have shifted : ∀ (bs : List Byte) (acc : Nat),
      bs.foldl (fun acc b => acc * 256 + b.toNat) acc = acc * 256 ^ bs.length + joinBytes bs := by
    intro bs
    induction bs with
    | nil => simp [joinBytes]
    | cons b bs ih =>
      intro acc
      have once : joinBytes (b :: bs) = b.toNat * 256 ^ bs.length + joinBytes bs := by
        rw [← ih]
        simp only [joinBytes, List.foldl_cons, Nat.zero_mul, Nat.zero_add]
      rw [List.foldl_cons, ih, once, List.length_cons]
      ring
  rw [← shifted]
  simp only [joinBytes, List.foldl_cons, Nat.zero_mul, Nat.zero_add]

theorem joinBytes_lt (bs : List Byte) : joinBytes bs < 256 ^ bs.length := by
  induction bs with
  | nil => simp [joinBytes]
  | cons b bs ih =>
    have byte : b.toNat * 256 ^ bs.length ≤ 255 * 256 ^ bs.length := by
      have := b.isLt
      exact Nat.mul_le_mul_right _ (by omega)
    rw [joinBytes_cons, List.length_cons, pow_succ]
    omega

/-- Splitting gives back the bytes joined, whatever stands above them. -/
theorem splitBytes_joinBytes (bs : List Byte) (high : Nat) :
    splitBytes bs.length (high * 256 ^ bs.length + joinBytes bs) = bs := by
  induction bs generalizing high with
  | nil => rfl
  | cons b bs ih =>
    have below := joinBytes_lt bs
    have split : high * 256 ^ (bs.length + 1) + (b.toNat * 256 ^ bs.length + joinBytes bs)
        = (high * 256 + b.toNat) * 256 ^ bs.length + joinBytes bs := by ring
    have top : ((high * 256 + b.toNat) * 256 ^ bs.length + joinBytes bs) / 256 ^ bs.length
        = high * 256 + b.toNat := by
      rw [Nat.mul_comm, Nat.mul_add_div (by positivity), Nat.div_eq_of_lt below, Nat.add_zero]
    rw [joinBytes_cons, List.length_cons, splitBytes, split, top, ih]
    congr 1
    apply BitVec.eq_of_toNat_eq
    simp only [BitVec.toNat_ofNat]
    omega

theorem length_splitBytes (n w : Nat) : (splitBytes n w).length = n := by
  induction n with
  | zero => rfl
  | succ n ih => simp [splitBytes, ih]

/-- Joining gives back the number split, where the bytes have room for it. -/
theorem joinBytes_splitBytes (n w : Nat) : joinBytes (splitBytes n w) = w % 256 ^ n := by
  induction n with
  | zero => simp [splitBytes, joinBytes, Nat.mod_one]
  | succ n ih =>
    rw [splitBytes, joinBytes_cons, length_splitBytes, ih, pow_succ, Nat.mod_mul, BitVec.toNat_ofNat]
    ring

/-- A sync constant read back from its eight bytes (30_encoding.md R104). -/
theorem decode_scan_splitBytes (k : SyncWords) (w : Sync) :
    decode k .scan (splitBytes 8 w.toNat) = decodeWindow k w := by
  have joined : BitVec.ofNat Config.srWidth (joinBytes (splitBytes 8 w.toNat)) = w := by
    apply BitVec.eq_of_toNat_eq
    have bound : w.toNat < 2 ^ 64 := w.isLt
    rw [joinBytes_splitBytes, BitVec.toNat_ofNat]
    simp only [Config.srWidth]
    omega
  exact congrArg (decodeWindow k) joined

/-- The eight bytes of a window are those its register splits into. -/
theorem splitBytes_window {bs : List Byte} (h : bs.length = 8) :
    splitBytes 8 (BitVec.ofNat Config.srWidth (joinBytes bs)).toNat = bs := by
  have bound := joinBytes_lt bs
  rw [h] at bound
  have value : (BitVec.ofNat Config.srWidth (joinBytes bs)).toNat = 0 * 256 ^ bs.length + joinBytes bs := by
    rw [BitVec.toNat_ofNat]
    simp only [Config.srWidth]
    omega
  rw [value, ← h]
  exact splitBytes_joinBytes bs 0

/-! ### ASCII digits (30_encoding.md R96, R97) -/

/-- A digit is the digit of its value. -/
theorem digitByte_digitValue {b : Byte} (h : isDigit b = true) :
    digitValue b < 10 ∧ digitByte (digitValue b) = b := by
  simp only [isDigit, Bool.and_eq_true, decide_eq_true_eq] at h
  refine ⟨by simp only [digitValue]; omega, ?_⟩
  apply BitVec.eq_of_toNat_eq
  simp only [digitByte, digitValue, BitVec.toNat_ofNat]
  omega

theorem toNat_digitByte {n : Nat} (h : n < 10) : (digitByte n).toNat = 0x30 + n := by
  simp only [digitByte, BitVec.toNat_ofNat]
  omega

/-! ### Decoding reads what encoding wrote -/

/-- The version reply read back: its digits are those of its operands (30_encoding.md R97). -/
theorem decode_encode_versionReply (k : SyncWords) {major minor : BitVec 4} (dot : Bool)
    (h : (Instr.versionReply major dot minor).wf = true) :
    decode k .version (encode k (.versionReply major dot minor)) = .instr (.versionReply major dot minor) := by
  simp only [Instr.wf, Bool.and_eq_true, decide_eq_true_eq] at h
  obtain ⟨⟨low, high⟩, minorHigh⟩ := h
  have majorByte := toNat_digitByte (n := major.toNat) (by omega)
  obtain ⟨-, majorValue⟩ := Machine.isDigit_digitByte (n := major.toNat) (by omega)
  obtain ⟨minorDigit, minorValue⟩ := Machine.isDigit_digitByte (n := minor.toNat) (by omega)
  have range : 0x31 ≤ (digitByte major.toNat).toNat ∧ (digitByte major.toNat).toNat ≤ 0x39 := by omega
  cases dot <;>
    simp [encode, decode, decodeVersion, majorValue, minorDigit, minorValue, range]

/-- Settles O1: row by row; the track command, the version reply and the sync constants by their own
laws, a catch-all row by the bytes its operand is not. -/
theorem decodeOfEncodeIsTheInstruction : Obligations.DecodeOfEncodeIsTheInstruction := by
  intro k i iamIdam iamDam idamDam wf
  cases i with
  | gotoTrack n => exact Machine.decode_encodeTrack k (by simpa [Instr.wf] using wf)
  | versionReply major dot minor => exact decode_encode_versionReply k dot wf
  | rsp1Other b => simp_all [Instr.wf, Instr.ctx, encode, decode, decodeRsp1]
  | rsptOther b => simp_all [Instr.wf, Instr.ctx, encode, decode, decodeRspT]
  | rsp2B0Other b => simp_all [Instr.wf, Instr.ctx, encode, decode, decodePresence]
  | rsp2B1Other b => simp_all [Instr.wf, Instr.ctx, encode, decode, decodeProtect]
  | densOther b => simp_all [Instr.wf, Instr.ctx, encode, decode, decodeDensity]
  | rspwOther b => simp_all [Instr.wf, Instr.ctx, encode, decode, decodeRspW]
  | syncIam =>
    refine (decode_scan_splitBytes k k.iam).trans ?_
    simp [decodeWindow]
  | syncIdam =>
    refine (decode_scan_splitBytes k k.idam).trans ?_
    simp [decodeWindow, iamIdam.symm]
  | syncDam =>
    refine (decode_scan_splitBytes k k.dam).trans ?_
    simp [decodeWindow, iamDam.symm, idamDam.symm]
  | _ => rfl

/-! ### Encoding writes what decoding read -/

/-- The instruction is well formed, stands in the context `c`, and its encoding is these bytes. -/
def Instr.Spells (i : Instr) (k : SyncWords) (c : Ctx) (bs : List Byte) : Prop :=
  i.wf = true ∧ i.ctx = c ∧ encode k i = bs

variable {k : SyncWords} {i : Instr} {b : Byte}

/-- A chain of comparisons answers an instruction at its first byte or further down. -/
theorem instr_of_ite {c : Byte} {j : Instr} {rest : Decoded}
    (h : (if b = c then .instr j else rest) = .instr i) : (b = c ∧ i = j) ∨ rest = .instr i := by
  split_ifs at h with here
  · cases h; exact .inl ⟨here, rfl⟩
  · exact .inr h

theorem decodeCommand_spells (h : decodeCommand b = .instr i) : i.Spells k .command [b] := by
  unfold decodeCommand at h
  iterate 16
    obtain ⟨rfl, rfl⟩ | h := instr_of_ite h
    · exact ⟨rfl, rfl, rfl⟩
  split_ifs at h

theorem decodeTrack_spells {tens units : Byte} (h : decodeTrack tens units = .instr i) :
    i.Spells k .command [Cmd.gotoTrack, tens, units] := by
  unfold decodeTrack at h
  split_ifs at h with digits range
  cases h
  rw [Bool.and_eq_true] at digits
  obtain ⟨tensLow, tensByte⟩ := digitByte_digitValue digits.1
  obtain ⟨unitsLow, unitsByte⟩ := digitByte_digitValue digits.2
  have quotient : (10 * digitValue tens + digitValue units) / 10 = digitValue tens := by omega
  have remainder : (10 * digitValue tens + digitValue units) % 10 = digitValue units := by omega
  refine ⟨decide_eq_true range, rfl, ?_⟩
  rw [encode, encodeTrack, quotient, remainder, tensByte, unitsByte]

theorem decodeRsp1_spells (k : SyncWords) (b : Byte) : (decodeRsp1 b).Spells k .rsp1 [b] := by
  unfold decodeRsp1
  split_ifs <;> simp_all [Instr.Spells, Instr.wf, Instr.ctx, encode]

theorem decodeRspT_spells (k : SyncWords) (b : Byte) : (decodeRspT b).Spells k .rspT [b] := by
  unfold decodeRspT
  split_ifs <;> simp_all [Instr.Spells, Instr.wf, Instr.ctx, encode]

theorem decodePresence_spells (k : SyncWords) (b : Byte) : (decodePresence b).Spells k .presence [b] := by
  unfold decodePresence
  split_ifs <;> simp_all [Instr.Spells, Instr.wf, Instr.ctx, encode]

theorem decodeProtect_spells (k : SyncWords) (b : Byte) : (decodeProtect b).Spells k .protect [b] := by
  unfold decodeProtect
  split_ifs <;> simp_all [Instr.Spells, Instr.wf, Instr.ctx, encode]

theorem decodeDensity_spells (k : SyncWords) (b : Byte) : (decodeDensity b).Spells k .density [b] := by
  unfold decodeDensity
  split_ifs <;> simp_all [Instr.Spells, Instr.wf, Instr.ctx, encode]

theorem decodeRspW_spells (k : SyncWords) (b : Byte) : (decodeRspW b).Spells k .rspW [b] := by
  unfold decodeRspW
  split_ifs <;> simp_all [Instr.Spells, Instr.wf, Instr.ctx, encode]

theorem decodeEcho_spells {w : List Byte} (h : decodeEcho w = .instr i) : i.Spells k .echo w := by
  unfold decodeEcho at h
  split_ifs at h with echo
  cases h
  exact ⟨rfl, rfl, echo.symm⟩

/-- A window that matches is the reply of its digits and its separator (41_handshake.md R153). -/
theorem decodeVersion_spells {w : List Byte} (h : decodeVersion w = .instr i) : i.Spells k .version w := by
  unfold decodeVersion at h
  split at h
  · next a v major sep minor =>
    split_ifs at h with matched
    cases h
    obtain ⟨rfl, rfl, low, high, separator, minorDigit⟩ := matched
    have majorDigit : isDigit major = true := by
      simp only [isDigit, Bool.and_eq_true, decide_eq_true_eq]
      omega
    obtain ⟨majorLow, majorByte⟩ := digitByte_digitValue majorDigit
    obtain ⟨minorLow, minorByte⟩ := digitByte_digitValue minorDigit
    have majorValue : (BitVec.ofNat 4 (digitValue major)).toNat = digitValue major := by
      rw [BitVec.toNat_ofNat]; omega
    have minorValue : (BitVec.ofNat 4 (digitValue minor)).toNat = digitValue minor := by
      rw [BitVec.toNat_ofNat]; omega
    have majorRange : 1 ≤ digitValue major := by simp only [digitValue]; omega
    refine ⟨?_, rfl, ?_⟩
    · simp only [Instr.wf, majorValue, minorValue, Bool.and_eq_true, decide_eq_true_eq]
      omega
    · rw [encode, majorValue, minorValue, majorByte, minorByte]
      obtain rfl | rfl := separator <;> rfl
  · cases h

theorem decodeWindow_spells {bs : List Byte} (len : bs.length = 8)
    (h : decodeWindow k (BitVec.ofNat Config.srWidth (joinBytes bs)) = .instr i) :
    i.Spells k .scan bs := by
  have bytes := splitBytes_window len
  unfold decodeWindow at h
  split_ifs at h with iam idam dam <;> cases h
  · exact ⟨rfl, rfl, by rw [encode, ← iam, bytes]⟩
  · exact ⟨rfl, rfl, by rw [encode, ← idam, bytes]⟩
  · exact ⟨rfl, rfl, by rw [encode, ← dam, bytes]⟩

/-- Settles O2: context by context, each by the law of its own decoder. -/
theorem encodeOfDecodeIsTheBytes : Obligations.EncodeOfDecodeIsTheBytes := by
  intro k c bs i h
  unfold decode at h
  split at h
  · exact decodeCommand_spells h
  · split_ifs at h with hash
    subst hash
    exact decodeTrack_spells h
  · cases h; exact decodeRsp1_spells k _
  · cases h; exact decodeRspT_spells k _
  · cases h; exact decodePresence_spells k _
  · cases h; exact decodeProtect_spells k _
  · cases h; exact decodeDensity_spells k _
  · cases h; exact decodeRspW_spells k _
  · cases h; exact ⟨rfl, rfl, rfl⟩
  · exact decodeEcho_spells h
  · exact decodeVersion_spells h
  · exact decodeWindow_spells rfl h
  · cases h

/-! ### Words and bytes by themselves -/

/-- Settles O3: each word is computed. -/
theorem spelledWordsDecode : Obligations.SpelledWordsDecode := by
  intro k
  refine ⟨rfl, rfl, rfl, rfl, rfl, rfl, rfl, rfl, rfl, ?_⟩
  decide

/-- Every byte of a response is an instruction (30_encoding.md R99). -/
theorem decode_response (k : SyncWords) (a : Machine.Await) (b : Byte) :
    ∃ i, decode k a.ctx [b] = .instr i := by
  cases a <;> exact ⟨_, rfl⟩

end Sys2Proof
end

section
/-! SUPPORT. What a step does at each place of the engine, what the meaning of each row can do, and on
these the statements about single commands, responses and windows (42_commands.md, 30_encoding.md,
43_streaming_read.md, 44_track_write.md). -/

namespace Sys2Proof.Machine

variable {s : State} {i : Instr}

/-! ### Places that hold bytes to decode (00_scope.md R18) -/

theorem step_issue_rejected {w : List Byte} {r : Reject} (hp : s.phase = .issue w)
    (hd : decode s.par.sync .command w = .reject r) : step s = .refused .illegalCommand :=
  step_eq_of_moved (by simp [State.fetch, hp, hd, orElse])

theorem step_judge_instr {a : Await} {b : Byte} {rest : List Byte} (hp : s.phase = .judge a (b :: rest))
    (hd : decode s.par.sync a.ctx [b] = .instr i) : step s = exec i s.tick :=
  step_eq_exec (by simp [State.fetch, hp, State.fetchResponse, hd, orElse]) (by simp [hp])

theorem step_look_matched (hp : s.phase = .hs .look)
    (hd : decode s.par.sync .version s.hs.vwin.bytes = .instr i) : step s = exec i s.tick :=
  step_eq_exec (by simp [State.fetch, hp, State.fetchHs, hd, orElse]) (by simp [hp])

theorem step_look_unmatched {r : Reject} (hp : s.phase = .hs .look)
    (hd : decode s.par.sync .version s.hs.vwin.bytes = .reject r) : step s = .next s.tick.hsNoMatch :=
  step_eq_of_moved (by simp [State.fetch, hp, State.fetchHs, hd, orElse, State.hsStep])

theorem step_stream_data {b : Byte} (hp : s.phase = .stream (.byte b)) (ha : s.str.abortSent = false) :
    step s = exec (.streamData b) s.tick :=
  step_eq_exec (by simp [State.fetch, hp, State.fetchStream, ha, decode, orElse]) (by simp [hp])

theorem step_echo_byte {b : Byte} (hp : s.phase = .stream (.byte b)) (ha : s.str.abortSent = true) :
    step s = .next (s.tick.echoByte b) :=
  step_eq_of_moved (by simp [State.fetch, hp, State.fetchStream, ha, State.streamStep])

theorem step_echo_matched (hp : s.phase = .stream .echo)
    (hd : decode s.par.sync .echo s.str.awin.bytes = .instr i) : step s = exec i s.tick :=
  step_eq_exec (by simp [State.fetch, hp, State.fetchStream, hd, orElse]) (by simp [hp])

theorem step_echo_unmatched {r : Reject} (hp : s.phase = .stream .echo)
    (hd : decode s.par.sync .echo s.str.awin.bytes = .reject r) :
    step s = .next (s.tick.gotoStream .bytes) :=
  step_eq_of_moved (by simp [State.fetch, hp, State.fetchStream, hd, orElse, State.streamStep])

theorem step_pauseRaw {c : Byte} {p : Option Byte} (hp : s.phase = .pauseRaw c p) :
    step s = .next (s.tick.commandPause (.markRaw c p)) :=
  step_eq_of_moved (by simp [State.fetch, hp])

theorem step_markRaw {c : Byte} {p : Option Byte} (hp : s.phase = .markRaw c p) :
    step s = .next (s.tick.commandMark c (.raw c p)) :=
  step_eq_of_moved (by simp [State.fetch, hp])

theorem step_raw {c : Byte} {p : Option Byte} (hp : s.phase = .raw c p) : step s = s.tick.writeRaw c p :=
  step_eq_of_moved (by simp [State.fetch, hp])

theorem step_param {p : Byte} (hp : s.phase = .param p) : step s = s.tick.writeParam p :=
  step_eq_of_moved (by simp [State.fetch, hp])

theorem step_protect {prot : Bool} {c : Code} (hp : s.phase = .protect prot c) :
    step s = .next (s.tick.setProtect prot c) :=
  step_eq_of_moved (by simp [State.fetch, hp])

theorem step_length {n : Nat} {c : Code} (hp : s.phase = .length n c) :
    step s = .next (s.tick.setLength n c) :=
  step_eq_of_moved (by simp [State.fetch, hp])

theorem step_closing (hp : s.phase = .closing) : step s = s.tick.finishClose :=
  step_eq_of_moved (by simp [State.fetch, hp])

theorem step_shut (hp : s.phase = .shut) : step s = .next s.tick.shut :=
  step_eq_of_moved (by simp [State.fetch, hp])

theorem step_block (hp : s.phase = .block) : step s = s.tick.blockPoll :=
  step_eq_of_moved (by simp [State.fetch, hp])

theorem step_framing {bs : List Byte} (hp : s.phase = .framing bs) :
    step s = .next (s.tick.blockFraming bs) :=
  step_eq_of_moved (by simp [State.fetch, hp])

theorem step_framed (hp : s.phase = .framed) : step s = .next s.tick.blockFramed :=
  step_eq_of_moved (by simp [State.fetch, hp])

theorem step_payload {precomp : Bool} (hp : s.phase = .payload precomp) :
    step s = s.tick.writePayload precomp :=
  step_eq_of_moved (by simp [State.fetch, hp])

theorem step_seek {track head : Nat} (hp : s.phase = .seek track head) :
    step s = s.tick.seekStep track head :=
  step_eq_of_moved (by simp [State.fetch, hp])

/-- A code that has been returned goes to the operation that waits for it. -/
theorem step_ret {c : Code} {f : Frame} {rest : List Frame} (hp : s.phase = .ret c)
    (hf : s.frames = f :: rest) : step s = resume f c (s.tick.pop rest) :=
  step_eq_of_moved (by simp [State.fetch, hp, State.handBack, hf])

/-- With nothing in flight the worker's next operation starts. -/
theorem step_start {o : Op} {rest : List Op} (hp : s.phase = .idle) (ho : s.ops = o :: rest) :
    step s = startOp o { s.tick with ops := rest } := by
  simp [step_idle hp, State.nextOp, ho]

/-! ### The scan (45_mfm_decoder.md R240) -/

theorem step_scan_over (hp : s.phase = .scan) (ended : scanOver s.dec s.cap = true) :
    step s = .next s.tick.endScan :=
  step_eq_of_moved (by simp [State.fetch, hp, State.fetchWindow, ended])

theorem Decoder.shift_full (d : Decoder) (cap : Capture) : (d.shift cap).full = d.full := rfl

theorem step_scan_filling (hp : s.phase = .scan) (go : scanOver s.dec s.cap = false)
    (full : s.dec.full = false) : step s = .next (s.tick.setDec (s.dec.shift s.cap).next) :=
  step_eq_of_moved (by
    simp only [State.fetch, State.tick_fields, hp, State.fetchWindow, go, State.setDec_fields,
      Decoder.shift_full, full]
    rfl)

theorem step_scan_unmatched {r : Reject} (hp : s.phase = .scan) (go : scanOver s.dec s.cap = false)
    (full : s.dec.full = true) (hd : decodeWindow s.par.sync (s.dec.shift s.cap).sr = .reject r) :
    step s = .next (s.tick.setDec (s.dec.shift s.cap).next) :=
  step_eq_of_moved (by
    simp only [State.fetch, State.tick_fields, hp, State.fetchWindow, go, State.setDec_fields,
      Decoder.shift_full, full, hd, orElse]
    rfl)

theorem step_scan_matched (hp : s.phase = .scan) (go : scanOver s.dec s.cap = false)
    (full : s.dec.full = true) (hd : decodeWindow s.par.sync (s.dec.shift s.cap).sr = .instr i) :
    step s = Answer.onNext (exec i (s.tick.setDec (s.dec.shift s.cap))) fun t => t.setDec t.dec.next := by
  have found : s.tick.fetch = .run i (s.tick.setDec (s.dec.shift s.cap)) := by
    simp only [State.fetch, State.tick_fields, hp, State.fetchWindow, go, State.setDec_fields,
      Decoder.shift_full, full, hd, orElse]
    rfl
  simp [step, found, runFetched, State.settle, hp]

/-- Settles O4: place by place. -/
theorem stepRunsTheDecodedInstruction : Obligations.StepRunsTheDecodedInstruction := by
  intro s i
  refine ⟨fun w hp hd => step_issue hp hd, fun a hp ho => step_await hp ho,
    fun a b rest hp hd => step_judge_instr hp hd, fun hp ho => ?_, fun b rest hp => step_hs hp nofun,
    fun b hp => step_hs hp nofun, fun hp hd => step_look_matched hp hd, fun b rest hp hc => ?_,
    fun b hp ha hd => ?_, fun b hp ha => step_echo_byte hp ha, fun hp hd => step_echo_matched hp hd,
    fun hp go full hd => ?_⟩
  · exact (step_hs hp nofun).trans (if_pos (by simpa using ho))
  · rw [step_stream hp fun _ => rfl]
    simp [State.streamStep, State.streamBytes, hc, State.setChunk, State.setStr, State.gotoStream, State.goto]
  · cases hd
    exact step_stream_data hp ha
  · exact step_scan_matched hp go (by simpa [Decoder.full] using full) hd

/-- Settles O5: response decoding is total; a rejection is refused before a write, and only shifts in the
scan. -/
theorem bytesOutsideTheTablesActAsTheTablesSay : Obligations.BytesOutsideTheTablesActAsTheTablesSay := by
  refine ⟨decode_response, fun s w hp hd => ?_, fun s hp go full hd => ?_⟩
  · cases rejected : decode s.par.sync .command w with
    | instr i => exact absurd rejected (hd i)
    | reject r => exact step_issue_rejected hp rejected
  · cases rejected : decodeWindow s.par.sync (shiftIn s.dec.sr (s.cap.capBit s.dec.t)) with
    | instr i => exact absurd rejected (hd i)
    | reject r => exact step_scan_unmatched hp go (by simpa [Decoder.full] using full) rejected

/-! ### The wire commands (42_commands.md R170, R172) -/

/-- A command whose refusal holds is refused, whichever row it is. -/
theorem exec_of_commandRefusal {r : Refusal} (hc : i.ctx = .command)
    (h : s.commandRefusal (s.allows i) = some r) : exec i s = .refused r := by
  cases i <;> cases hc <;>
    simp only [State.allows] at h <;>
    simp [exec, execVersion, execRewind, execGotoTrack, execHead0, execHead1, execReadTrack,
      execReadStream, execEnable, execDisable, execWriteTrack, execWritePrecomp, execDiagnostics,
      execDensity, execCheckDisk, execCheckWp, execFeatures, execAbort, State.command, h]

/-- A command about to be written, in a state that allows it and with a session, is not refused. -/
theorem State.commandRefusal_eq_none {allowed : Bool} {w : List Byte} (hp : s.phase = .issue w)
    (ha : allowed = true) (ho : s.tp.isOpen = true) : s.commandRefusal allowed = none := by
  simp [State.commandRefusal, hp, Phase.isIssue, ha, ho]

theorem State.command_of_allowed {allowed : Bool} {w : List Byte} {n : State} (hp : s.phase = .issue w)
    (ha : allowed = true) (ho : s.tp.isOpen = true) : s.command allowed n = .next n := by
  rw [State.command, State.commandRefusal_eq_none hp ha ho]

/-- Where the engine goes on once a command whose count is examined has been written whole. -/
def afterWrite : Instr → Phase
  | .gotoTrack _ => .await .rspT
  | .checkDisk => .await .diskPresence
  | .checkWp => .await .wpByte
  | .readTrack => .block
  | _ => .await .rsp1

/-- The write of a command, with the operation that waits for its code. -/
def State.sendInstr (s : State) (i : Instr) : State :=
  State.send { s with frames := waitingFor i ++ s.frames } (encode s.par.sync i) .sendFailed (afterWrite i)

/-- A command that nothing ends before its write is written: all fifteen alike. -/
theorem exec_of_writes {w : List Byte} (hp : s.phase = .issue w) (ho : s.tp.isOpen = true)
    (hw : s.writes i = true) : exec i s = .next (s.sendInstr i) := by
  obtain ⟨allowed, untested⟩ := Bool.and_eq_true_iff.mp hw
  have go := fun n => State.command_of_allowed (n := n) hp allowed ho
  cases i with
  | gotoTrack n =>
    have inRange : ¬ Config.trackMax < n := Nat.not_lt.mpr (of_decide_eq_true untested)
    exact (go _).trans (by rw [if_neg inRange]; rfl)
  | writeTrack =>
    have free : ¬ s.writeProtected = true := by simpa using untested
    exact (go _).trans (by rw [if_neg free]; rfl)
  | writePrecomp =>
    obtain ⟨free, legal⟩ := Bool.and_eq_true_iff.mp untested
    have none : s.commandRefusal (s.st == .writeEnabled) = none :=
      State.commandRefusal_eq_none hp allowed ho
    rw [Bool.not_eq_true'] at free
    simp only [exec, execWritePrecomp, none, State.guardWrite, free, legal]
    rfl
  | version | abort => cases untested
  | rewind | head0 | head1 | readTrack | readStream | enable | disable | diagnostics | density
  | checkDisk | checkWp | features => exact go _
  | _ => cases allowed

/-- Everything a command about to be written can do: it is refused, written, sent as a kick or as the abort
byte, or returns the code of the test before its write. -/
theorem exec_command_cases {w : List Byte} (hp : s.phase = .issue w) (hc : i.ctx = .command) :
    (∃ r, exec i s = .refused r)
    ∨ s.tp.isOpen = true ∧ s.allows i = true
      ∧ (s.writes i = true ∧ exec i s = .next (s.sendInstr i)
        ∨ i = .version ∧ exec i s = .next ((s.wrote [Cmd.version]).gotoHs .kicked)
        ∨ i = .abort ∧ exec i s = .next ((s.wrote [Cmd.abort]).goto (.stream .aborted))
        ∨ i ≠ .abort ∧ ∃ c, exec i s = .next (s.ret c)) := by
  cases refusal : s.commandRefusal (s.allows i) with
  | some r => exact .inl ⟨r, exec_of_commandRefusal hc refusal⟩
  | none =>
    have allowed : s.allows i = true := by
      by_contra h
      simp [State.commandRefusal] at refusal
      split at refusal <;> simp_all
    have ho : s.tp.isOpen = true := by
      by_contra h
      simp [State.commandRefusal] at refusal
      split at refusal <;> simp_all
    by_cases hw : s.writes i = true
    · exact .inr ⟨ho, allowed, .inl ⟨hw, exec_of_writes hp ho hw⟩⟩
    · have untested := hw
      simp only [State.writes, allowed, Bool.true_and] at untested
      have go := fun n => State.command_of_allowed (n := n) hp allowed ho
      cases i with
      | version => exact .inr ⟨ho, allowed, .inr (.inl ⟨rfl, go _⟩)⟩
      | abort => exact .inr ⟨ho, allowed, .inr (.inr (.inl ⟨rfl, go _⟩))⟩
      | gotoTrack n =>
        have out : Config.trackMax < n := by simpa using untested
        exact .inr ⟨ho, allowed, .inr (.inr (.inr ⟨nofun, _, (go _).trans (by rw [if_pos out])⟩))⟩
      | writeTrack =>
        have prot : s.writeProtected = true := by simpa using untested
        exact .inr ⟨ho, allowed, .inr (.inr (.inr ⟨nofun, _, (go _).trans (by rw [if_pos prot])⟩))⟩
      | writePrecomp =>
        simp only [State.allows] at refusal
        by_cases prot : s.writeProtected = true
        · refine .inr ⟨ho, allowed, .inr (.inr (.inr ⟨nofun, .writeProtected, ?_⟩))⟩
          simp [exec, execWritePrecomp, refusal, State.guardWrite, prot]
        · have illegal : s.wr.transitions.all legalRun = false := by simpa [prot] using untested
          refine .inl ⟨.badOperand, ?_⟩
          simp [exec, execWritePrecomp, refusal, State.guardWrite, prot, illegal]
      | _ => cases hc <;> exact absurd rfl untested

/-- A command written whole goes on where its row says (42_commands.md R170). -/
theorem exec_of_accepted {w : List Byte} (hp : s.phase = .issue w) (ho : s.tp.isOpen = true)
    (hw : s.writes i = true)
    (ha : s.accepted (encode s.par.sync i).length = (encode s.par.sync i).length) :
    exec i s = .next { s.sent (encode s.par.sync i) (afterWrite i) with frames := waitingFor i ++ s.frames } := by
  have all : State.accepted { s with frames := waitingFor i ++ s.frames }
      (encode s.par.sync i).length = (encode s.par.sync i).length := ha
  rw [exec_of_writes hp ho hw, State.sendInstr, State.send, if_pos all, State.wrote, all,
    List.take_length, if_neg (Nat.lt_irrefl _)]
  rfl

/-- A command of which only a part is written returns `SendFailed` (42_commands.md R171). -/
theorem exec_of_short_write {w : List Byte} (hp : s.phase = .issue w) (ho : s.tp.isOpen = true)
    (hw : s.writes i = true)
    (short : s.accepted (encode s.par.sync i).length < (encode s.par.sync i).length) :
    exec i s = .next { s with
      phase := .exit .sendFailed
      tp := { s.tp with
              tx := s.tp.tx ++ (encode s.par.sync i).take (s.accepted (encode s.par.sync i).length) }
      now := s.now + deadline s.tp.wrTimeout (encode s.par.sync i).length
      frames := waitingFor i ++ s.frames } := by
  have part : State.accepted { s with frames := waitingFor i ++ s.frames }
      (encode s.par.sync i).length < (encode s.par.sync i).length := short
  rw [exec_of_writes hp ho hw, State.sendInstr, State.send, if_neg part.ne, State.wrote, if_pos part]
  rfl

/-- Settles O6: each of the ten is a command that writes, its row's bytes whole. -/
theorem commandsCompleteInTheirStates : Obligations.CommandsCompleteInTheirStates := by
  refine ⟨fun s w hp => step_pause hp, fun s b w hp => step_mark hp, fun s w hp ho ha => ?_⟩
  have written : ∀ {i : Instr}, s.writes i = true → (encode s.par.sync i).length = 1 → exec i s
      = .next { s.sent (encode s.par.sync i) (afterWrite i) with frames := waitingFor i ++ s.frames } :=
    fun hw one => exec_of_accepted hp ho hw (by rw [one, ha])
  refine ⟨fun hs => ?_, fun hs => ?_, fun hs => ?_⟩
  · have all : ∀ {i : Instr}, s.writes i = (s.st.commands && true) → s.writes i = true := fun h => by
      rw [h, hs]; rfl
    exact ⟨written (all rfl) rfl, written (all rfl) rfl, written (all rfl) rfl, written (all rfl) rfl,
      written (all rfl) rfl, written (all rfl) rfl, written (all rfl) rfl, written (all rfl) rfl⟩
  · exact written (by rcases hs with hs | hs <;> simp [State.writes, State.allows, hs]) rfl
  · exact written (by simp [State.writes, State.allows, hs]) rfl

/-- Settles O7: up to 83 a command that writes, above it the test before the write. -/
theorem gotoTrackCompletes : Obligations.GotoTrackCompletes := by
  intro n s w hp ho hs
  refine ⟨fun inRange ha => ?_, fun out => ?_⟩
  · refine exec_of_accepted (i := .gotoTrack n) hp ho ?_ ha
    simp [State.writes, State.allows, hs, Config.trackMax, inRange]
  · exact (State.command_of_allowed hp hs ho).trans (congrArg _ (if_pos out))

/-! ### The track reads and writes -/

/-- Every bit appended to an empty buffer is the framing's (43_streaming_read.md R212). -/
theorem fillBits_empty_bitAt (cap : Capture) (bits : List Bool) {j : Nat}
    (h : j < min bits.length (8 * cap.size)) :
    bits[j]? = some (({ cap with buf := (fillBits cap.size bits [] { pos := 0, bit := 0 }).1 } :
      Capture).bitAt j) := by
  have passed := fillBits_linear (size := cap.size) bits (buf := []) (c := { pos := 0, bit := 0 })
    (by decide) (Nat.zero_le _)
  have bit := fillBits_bitAt bits (cap := { cap with buf := [] }) (c := { pos := 0, bit := 0 }) rfl
    (by decide) (Nat.zero_le _) j
  simp only [Cursor.linear, Nat.mul_zero, Nat.zero_add, Nat.sub_zero, Nat.zero_le, true_and] at passed bit
  rw [bit, if_pos (by omega), List.getD_eq_getElem?_getD, List.getElem?_eq_getElem (by omega)]
  rfl

/-- Settles O8: the two commands write; each poll of the block is one step, and the framing's bits are
appended to an empty buffer. -/
theorem trackReadCommandsComplete : Obligations.TrackReadCommandsComplete := by
  refine ⟨fun s w hp ho ha hs => ⟨?_, ?_⟩, fun s hp ho => (step_block hp).trans (if_pos (by simpa using ho)),
    fun s bs hp => ?_, fun s hp => ?_, fun s n c hp => step_length hp⟩
  · exact exec_of_accepted (i := .readStream) hp ho (by simp [State.writes, State.allows, hs]) ha
  · exact exec_of_accepted (i := .readTrack) hp ho (by simp [State.writes, State.allows, hs]) ha
  · cases bs <;> exact step_framing hp
  · have judged : step s = .next (s.tick.blockVerdict (Config.blockVerdict s.blk.got s.blk.empty)) :=
      step_framed hp
    refine ⟨fun more => ?_, fun e bits ended => ?_⟩
    · rw [more] at judged
      exact judged
    · rw [ended] at judged
      refine ⟨_, min bits.length (8 * s.cap.size), e.code, judged, by cases e <;> simp [BlockEnd.code],
        rfl, ?_, fun j hj => fillBits_empty_bitAt s.cap bits hj⟩
      have length := fillBits_linear (size := s.cap.size) bits (buf := []) (c := { pos := 0, bit := 0 })
        (by decide) (Nat.zero_le _)
      simp only [State.blockVerdict, State.tick_fields, length]
      simp [Cursor.linear, State.goto, State.setCap]

/-- Settles O9: the two commands by the tests before their write, the call by the same guard. -/
theorem trackWriteCommandsComplete : Obligations.TrackWriteCommandsComplete := by
  refine ⟨fun s w hp ho hs => ?_, fun s precomp mfm nbits rest hp hops wr hwr => ?_⟩
  · have allowed : (s.st == .writeEnabled) = true := by simp [hs]
    have none : s.commandRefusal (s.st == .writeEnabled) = none :=
      State.commandRefusal_eq_none hp allowed ho
    refine ⟨fun prot => ⟨?_, ?_⟩, fun free ha => ⟨?_, fun legal => ?_⟩, fun free illegal => ?_⟩
    · exact (State.command_of_allowed hp allowed ho).trans (congrArg _ (if_pos prot))
    · rw [exec, execWritePrecomp, none]
      exact if_pos prot
    · exact exec_of_accepted (i := .writeTrack) hp ho
        (by simp [State.writes, State.allows, hs, free]) ha
    · exact exec_of_accepted (i := .writePrecomp) hp ho
        (by simp only [State.writes, State.allows, allowed, free, legal]; rfl) ha
    · simp [exec, execWritePrecomp, none, State.guardWrite, free, illegal]
  · have start : step s = State.startWriteTrack { s.tick with ops := rest } precomp mfm nbits :=
      step_start hp hops
    rw [start, State.startWriteTrack, ← hwr]
    refine ⟨fun hs => if_pos hs, fun hs prot => ?_, fun hs free legal => ?_, fun hs free hprecomp illegal => ?_⟩
    · exact (if_neg (not_not.mpr hs)).trans (if_pos prot)
    · have noRun : ¬ (precomp && !wr.transitions.all legalRun) = true := by
        cases precomp <;> simp_all
      have unprotected : ¬ s.tick.writeProtected = true := by simp [free]
      refine (if_neg (not_not.mpr hs)).trans ((if_neg unprotected).trans ((if_neg noRun).trans ?_))
      rfl
    · have run : (precomp && !wr.transitions.all legalRun) = true := by simp [hprecomp, illegal]
      have unprotected : ¬ s.tick.writeProtected = true := by simp [free]
      exact (if_neg (not_not.mpr hs)).trans ((if_neg unprotected).trans (if_pos run))

/-! ### Commands without a response, short writes and refusals -/

/-- Settles O10: neither command examines its count; the steps after them are register updates. -/
theorem unansweredCommandsComplete : Obligations.UnansweredCommandsComplete := by
  refine ⟨fun s w hp ho => ⟨fun hs => ?_, fun hs => ?_⟩, fun s => ⟨fun hp => step_hs hp nofun,
    fun rest hp hf => ?_, fun hp hf => ?_, fun hp => step_stream hp fun _ => rfl⟩⟩
  · exact State.command_of_allowed hp (by simp [hs]) ho
  · exact State.command_of_allowed hp (by simp [hs]) ho
  · have sent : step s = .next s.tick.streamAborted := step_stream hp fun _ => rfl
    rw [sent, State.streamAborted]
    simp only [State.setStr_fields, State.tick_fields, hf]
    rfl
  · have sent : step s = .next s.tick.streamAborted := step_stream hp fun _ => rfl
    obtain ⟨rest, waiting, -⟩ | ⟨-, unwaited⟩ := s.tick.streamAborted_cases
    · exact absurd (by simp [show s.frames = _ from waiting]) hf
    · rw [sent, unwaited]
      rfl

/-- Settles O11: all fifteen end alike. -/
theorem shortCommandWriteReturnsSendFailed : Obligations.ShortCommandWriteReturnsSendFailed :=
  ⟨fun _ _ _ hp ho hw short => exec_of_short_write hp ho hw short, fun _ _ hp => step_exit hp⟩

/-- Settles O12: the refusal is that of every command. -/
theorem commandsOutsideTheirStatesAreRefused : Obligations.CommandsOutsideTheirStatesAreRefused :=
  fun s w i hp hc ha => exec_of_commandRefusal hc (by simp [State.commandRefusal, hp, Phase.isIssue, ha])

/-- A response that no exchange awaits is refused (30_encoding.md R95). -/
theorem State.answer_of_unawaited {a : Await} (n : State) (h : ∀ bs, s.phase ≠ .judge a bs) :
    s.answer a n = .refused .noContext := by
  refine if_neg fun awaited => ?_
  obtain ⟨bs, hp⟩ := Phase.judging_eq_some.mp awaited
  exact h bs hp

theorem State.protectByte_of_unawaited (prot : Bool)
    (h : ∀ a bs, s.phase = .judge a bs → a.ctx ≠ .protect) : s.protectByte prot = .refused .noContext := by
  unfold State.protectByte
  split
  · exact absurd rfl (h _ _ ‹_›)
  · exact absurd rfl (h _ _ ‹_›)
  · rfl

/-- Settles O13: each row's meaning tests its own place. -/
theorem rowsOutsideTheirExchangeAreRefused : Obligations.RowsOutsideTheirExchangeAreRefused := by
  intro s i
  refine ⟨fun hc hp => exec_of_commandRefusal hc (by simp [State.commandRefusal, hp]),
    fun hc hp ha ho => exec_of_commandRefusal hc (by simp [State.commandRefusal, hp, ha, ho]),
    fun hc unawaited => ?_, fun hc hs => ?_, fun hc hs => ?_, fun hc hp => ?_⟩
  · have refused : ∀ a n, i.ctx = a.ctx → s.answer a n = .refused .noContext := fun a n same =>
      State.answer_of_unawaited n fun bs hp => unawaited a bs hp same.symm
    obtain ⟨a, hc⟩ := hc
    cases i with
    | rsp1Ok | rsp1Error | rsp1Other b => exact refused .rsp1 _ rfl
    | rsptMoved | rsptAlready | rsptFail | rsptOther b => exact refused .rspT _ rfl
    | rsp2NoDisk | rsp2Present | rsp2B0Other b => exact refused .diskPresence _ rfl
    | rsp2Prot1 | rsp2ProtHash | rsp2B1Other b => exact State.protectByte_of_unawaited _ unawaited
    | densHd | densDd | densOther b => exact refused .density _ rfl
    | rspwClean | rspwTimeout | rspwFraming | rspwOverrun | rspwOther b => exact refused .rspW _ rfl
    | _ => cases a <;> cases hc
  · cases i <;> simp [Instr.ctx] at hc
    · exact if_neg fun h => hs h.1
    · exact if_neg fun h => hs h.1
  · cases i <;> cases hc
    exact if_neg fun h => hs h.1
  · have untested : ¬ s.testing = true := by simp [State.testing, hp]
    cases i <;> cases hc <;> exact if_neg untested

/-! ### Responses and windows -/

/-- Settles O14: each response is the one its exchange awaits. -/
theorem oneByteResponsesReturnTheirCodes : Obligations.OneByteResponsesReturnTheirCodes := by
  intro s b bs
  refine ⟨fun hp => ?_, fun hp => ?_, fun hp => ?_⟩
  · have judged := fun c => State.answer_ret_of_judge hp c
    exact ⟨judged _, judged _, judged _⟩
  · have judged := fun c => State.answer_ret_of_judge hp c
    exact ⟨judged _, judged _, judged _, judged _⟩
  · have judged := fun n => State.answer_of_judge (n := n) hp
    exact ⟨judged _, judged _, judged _⟩

/-- Settles O15: the presence byte is held; the write-protect byte by the place it is judged in. -/
theorem diskBytesUpdateTheCachedFlags : Obligations.DiskBytesUpdateTheCachedFlags := by
  intro s b bs
  refine ⟨fun hp => ?_, fun i p row => ?_, fun p c hp => step_protect hp⟩
  · have judged := fun n => State.answer_of_judge (n := n) hp
    exact ⟨judged _, judged _, judged _⟩
  · have meaning : exec i s = s.protectByte p := by
      obtain ⟨rfl, rfl⟩ | ⟨rfl, rfl⟩ | ⟨rfl, rfl⟩ := row <;> rfl
    rw [meaning]
    refine ⟨fun hp => ?_, fun hp => ?_, fun hp => ?_, fun hp => ?_⟩ <;>
      simp only [State.protectByte, hp] <;> rfl

/-- Settles O17: the echo's meaning in its place, and the two steps that follow. -/
theorem abortEchoEndsTheRead : Obligations.AbortEchoEndsTheRead :=
  fun _ => ⟨fun hs hp ha => if_pos ⟨hs, hp, ha⟩, fun hp => step_stream hp fun _ => rfl,
    fun hp => step_stream hp fun _ => rfl⟩

/-- Settles O18: the reply's meaning in its place, and the two steps that follow. -/
theorem versionReplyRecordsTheVersion : Obligations.VersionReplyRecordsTheVersion :=
  fun _ _ _ _ => ⟨fun hs hp => if_pos ⟨hs, hp⟩, fun hp => step_hs hp nofun, fun hp => step_hs hp nofun⟩

end Sys2Proof.Machine
end

section
/-! SUPPORT. The scan, iteration by iteration: each step of it is one iteration of the pure decoder, which
keeps the decoder's bounds (45_mfm_decoder.md R240, R245 to R256). -/

namespace Sys2Proof.Machine

variable {s : State}

/-! ### One step of the scan is one iteration -/

/-- Where a window is tested, a match replaces the decoder's registers and the cursor advances. -/
theorem onNext_match {d : Decoder} (ht : s.testing = true) :
    Answer.onNext (s.onMatch d) (fun t => t.setDec t.dec.next) = .next (s.setDec d.next) := by
  rw [State.onMatch, if_pos ht]
  rfl

/-- Whatever the environment does, a step of a scan that is not over is one iteration of its loop. -/
theorem step_scan_iterate (hp : s.phase = .scan) (go : scanOver s.dec s.cap = false) :
    step s = .next (s.tick.setDec (s.dec.iterate s.par s.cap)) := by
  cases full : s.dec.full with
  | false =>
    rw [step_scan_filling hp go full, Decoder.iterate, full]
    rfl
  | true =>
    have testing : (s.tick.setDec (s.dec.shift s.cap)).testing = true := by
      simp [State.testing, hp, Decoder.shift_full, full]
    rw [Decoder.iterate, if_pos full, Decoder.act]
    cases window : decodeWindow s.par.sync (s.dec.shift s.cap).sr with
    | reject r => exact step_scan_unmatched hp go full window
    | instr i =>
      rw [step_scan_matched hp go full window]
      unfold decodeWindow at window
      split_ifs at window <;> cases window
      · exact onNext_match testing
      · exact onNext_match testing
      · exact onNext_match testing

/-- The end of the scan stands at idle, with the decoder's outputs written, unless a capture waits for
it. -/
theorem State.endScan_of_unwaited (hf : s.frames = []) :
    s.endScan = (s.setDec s.dec.finish).goto .idle := by
  simp only [State.endScan, State.setDec_fields, hf]

/-! ### The scan computes `decode` -/

/-- What a scan leaves as it was: everything but the decoder and the environment's parts. -/
structure State.SameButDecoder (s t : State) : Prop where
  phase : t.phase = s.phase
  frames : t.frames = s.frames
  par : t.par = s.par
  cap : t.cap = s.cap
  st : t.st = s.st
  lastError : t.lastError = s.lastError
  isHDMode : t.isHDMode = s.isHDMode
  diskPresent : t.diskPresent = s.diskPresent
  writeProtected : t.writeProtected = s.writeProtected

theorem State.SameButDecoder.trans {s t u : State} (h : s.SameButDecoder t) (k : t.SameButDecoder u) :
    s.SameButDecoder u where
  phase := k.phase.trans h.phase
  frames := k.frames.trans h.frames
  par := k.par.trans h.par
  cap := k.cap.trans h.cap
  st := k.st.trans h.st
  lastError := k.lastError.trans h.lastError
  isHDMode := k.isHDMode.trans h.isHDMode
  diskPresent := k.diskPresent.trans h.diskPresent
  writeProtected := k.writeProtected.trans h.writeProtected

/-- As many steps as fit before the scan's end are as many iterations. -/
theorem steps_scan (n : Nat) (hp : s.phase = .scan) (room : s.dec.t + n ≤ scanLength s.cap) :
    ∃ t, steps n s = .next t ∧ t.dec = Decoder.scan s.par s.cap n s.dec ∧ s.SameButDecoder t := by
  induction n generalizing s with
  | zero => exact ⟨s, rfl, rfl, ⟨rfl, rfl, rfl, rfl, rfl, rfl, rfl, rfl, rfl⟩⟩
  | succ n ih =>
    have go : scanOver s.dec s.cap = false := by simp only [scanOver, decide_eq_false_iff_not]; omega
    obtain ⟨t, run, scanned, same⟩ := ih (s := s.tick.setDec (s.dec.iterate s.par s.cap)) hp (by
      simp only [State.setDec_fields, State.tick_fields, Decoder.iterate_t]
      omega)
    exact ⟨t, steps_of_step (step_scan_iterate hp go) run, scanned, .trans (t := s.tick.setDec _)
      ⟨rfl, rfl, rfl, rfl, rfl, rfl, rfl, rfl, rfl⟩ same⟩

theorem Decoder.scan_t (p : Params) (cap : Capture) (n : Nat) (d : Decoder) :
    (Decoder.scan p cap n d).t = d.t + n := by
  induction n generalizing d with
  | zero => rfl
  | succ n ih => rw [Decoder.scan, ih, Decoder.iterate_t]; omega

/-- Settles O44: the scan's iterations, then its end. -/
theorem scanComputesDecode : Obligations.ScanComputesDecode := by
  intro s isHD cylinder head expected hp hf hd
  have start : s.dec.t = 0 := by rw [hd]; rfl
  obtain ⟨t, run, scanned, same⟩ := steps_scan (scanLength s.cap) hp (by omega)
  have ended : scanOver t.dec t.cap = true := by
    simp [scanOver, scanned, Decoder.scan_t, start, same.cap]
  have last := step_scan_over (same.phase.trans hp) ended
  rw [State.endScan_of_unwaited (s := t.tick) (same.frames.trans hf)] at last
  refine ⟨_, (steps_add run 1).trans (steps_one last), ?_, rfl, same.cap, same.st, same.lastError,
    same.isHDMode, same.diskPresent, same.writeProtected⟩
  simp only [State.tick_fields, scanned, hd]
  rfl

/-! ### The decoder's bounds (10_state.md R35) -/

/-- An entry after an insertion was there before, or is the inserted one, with a key of at most 21. -/
theorem Track.mem_insertSector {trk : Track} {r : Nat} {bytes : List Byte} {err : Half}
    {e : Nat × Sector} (h : e ∈ trk.insertSector r bytes err) :
    e ∈ trk ∨ (r - 1 ≤ 21 ∧ e = (r - 1, { bytes := bytes, errorCount := err })) := by
  have stored : ¬ Config.maxSector < r → e ∈ trk.set (r - 1) { bytes := bytes, errorCount := err } →
      e ∈ trk ∨ (r - 1 ≤ 21 ∧ e = (r - 1, { bytes := bytes, errorCount := err })) := by
    intro inside h
    simp only [Config.maxSector] at inside
    rcases Track.mem_set h with rfl | h
    · exact .inr ⟨by omega, rfl⟩
    · exact .inl h
  unfold Track.insertSector at h
  split at h
  · exact .inl h
  · next inside =>
    split at h
    · exact stored inside h
    · split at h
      · exact stored inside h
      · exact .inl h

variable {p : Params} {d : Decoder}

/-- The parameters' constraints on `SYNTH_ERR` (00_scope.md R9). -/
theorem Params.synthErr_of_ok (h : p.ok = true) :
    5 < p.synthErr.toNat ∧ p.synthErr.toNat + 1 < 0xFFFF := by
  simp only [Params.ok, Bool.and_eq_true, decide_eq_true_eq] at h
  exact ⟨h.1.1.1.1.1, h.1.1.1.1.2⟩

/-- A bound on the registers it speaks of holds of every decoder with the same ones. -/
theorem Decoder.Bounded.of_same {d' : Decoder} (h : d.Bounded p) (trk : d'.trk = d.trk)
    (found : d'.headerFound = d.headerFound) (hdr : d'.hdr = d.hdr) (err : d'.hdrErr = d.hdrErr) :
    d'.Bounded p := by
  rw [Decoder.Bounded, trk, found, hdr, err]
  exact h

/-- One more error than a latched header may have is below the sentinel (45_mfm_decoder.md R254). -/
theorem errors_add_one_in_bounds (ok : p.ok = true) {err once : Half}
    (header : err.toNat ≤ p.synthErr.toNat) (data : once.toNat ≤ 1) :
    (err + once).toNat ≤ p.synthErr.toNat + 1 ∧ err + once ≠ 0xFFFF := by
  obtain ⟨-, sentinel⟩ := Params.synthErr_of_ok ok
  have total : (err + once).toNat ≤ p.synthErr.toNat + 1 := by
    rw [BitVec.toNat_add]
    omega
  refine ⟨total, fun filler => ?_⟩
  rw [filler] at total
  exact absurd total (Nat.not_le.mpr sentinel)

/-- A data record for a header in bounds is stored in bounds (45_mfm_decoder.md R251 to R256). -/
theorem Decoder.dataRecord_bounded (ok : p.ok = true) (h : d.Bounded p) (found : d.headerFound = true)
    (cap : Capture) (s : Nat) : (d.dataRecord cap s).Bounded p := by
  obtain ⟨wf, entries, header⟩ := h
  obtain ⟨-, errors⟩ := header found
  unfold Decoder.dataRecord
  split
  · exact ⟨wf, entries, nofun⟩
  · next legal =>
    refine ⟨Track.insertSector_wf _ _ _ wf, fun e he => ?_, nofun⟩
    rcases Track.mem_insertSector he with he | ⟨key, rfl⟩
    · exact entries e he
    · refine ⟨key, ⟨d.hdr.n, Nat.not_lt.mp legal, ?_⟩, errors_add_one_in_bounds ok errors
        (errorIf_toNat_le _)⟩
      simp only [List.length_take, List.length_drop, Capture.extract_length, sectorSize]
      omega

/-- A guessed header has a sector number and `SYNTH_ERR` errors (45_mfm_decoder.md R252). -/
theorem Decoder.synthesize_bounded (h : d.Bounded p) : (d.synthesize p).Bounded p :=
  ⟨h.1, h.2.1, fun _ => ⟨Nat.le_add_left 1 _, le_rfl⟩⟩

/-- A latched header has a clamped sector number and at most four errors (45_mfm_decoder.md R246, R249). -/
theorem Decoder.onIdam_bounded (ok : p.ok = true) (h : d.Bounded p) (cap : Capture) (s : Nat) :
    (d.onIdam cap s).Bounded p := by
  have few := headerErrors_toNat_le (cap.extract s 10) d.cylinder d.head
  obtain ⟨enough, -⟩ := Params.synthErr_of_ok ok
  rw [Decoder.onIdam, Decoder.gapSample_eq]
  exact ⟨h.1, h.2.1, fun _ => ⟨Nat.le_max_left .., few.trans (by omega)⟩⟩

/-- Every action of the scan keeps the bounds. -/
theorem Decoder.act_bounded (ok : p.ok = true) (h : d.Bounded p) (cap : Capture) :
    (d.act p cap).Bounded p := by
  unfold Decoder.act
  split
  · exact h.of_same rfl rfl rfl rfl
  · exact Decoder.onIdam_bounded ok h ..
  · unfold Decoder.onDam
    split
    · next found => exact Decoder.dataRecord_bounded ok h found ..
    · exact Decoder.dataRecord_bounded ok (Decoder.synthesize_bounded h) rfl ..
  · exact h

/-- Every iteration of the scan keeps the bounds; the shift and the cursor do not touch them. -/
theorem Decoder.iterate_bounded (ok : p.ok = true) (h : d.Bounded p) (cap : Capture) :
    (d.iterate p cap).Bounded p := by
  have shifted : (d.shift cap).Bounded p := h.of_same rfl rfl rfl rfl
  unfold Decoder.iterate
  split
  · exact (Decoder.act_bounded ok shifted cap).of_same rfl rfl rfl rfl
  · exact shifted.of_same rfl rfl rfl rfl

theorem Decoder.initial_bounded (p : Params) (isHD : Bool) (cylinder head expected : Nat) :
    (Decoder.initial isHD cylinder head expected).Bounded p :=
  ⟨rfl, nofun, nofun⟩

theorem Decoder.scan_bounded (ok : p.ok = true) (n : Nat) (h : d.Bounded p) (cap : Capture) :
    (Decoder.scan p cap n d).Bounded p := by
  induction n generalizing d with
  | zero => exact h
  | succ n ih => exact ih (Decoder.iterate_bounded ok h cap)

/-! ### The decoder's canonical form (20_memory.md R68) -/

/-- Every iteration of the scan keeps the track's keys strictly rising. -/
theorem Decoder.iterate_wf (p : Params) (cap : Capture) (h : d.trk.wf = true) :
    (d.iterate p cap).trk.wf = true := by
  have inserted : ∀ (e : Decoder) (s : Nat), e.trk.wf = true → (e.dataRecord cap s).trk.wf = true := by
    intro e s he
    unfold Decoder.dataRecord
    split
    · exact he
    · exact Track.insertSector_wf _ _ _ he
  have acted : ∀ e : Decoder, e.trk.wf = true → (e.act p cap).trk.wf = true := by
    intro e he
    unfold Decoder.act
    split
    · exact he
    · rw [Decoder.onIdam, Decoder.gapSample_eq]
      exact he
    · unfold Decoder.onDam
      split
      · exact inserted e _ he
      · exact inserted _ _ he
    · exact he
  unfold Decoder.iterate
  split
  · exact acted _ h
  · exact h

end Sys2Proof.Machine
end

section
/-! SUPPORT. What one step can do to the machine's store: the capture, the decoder, the adapter, the cached
flags and the parameters. The step is taken apart once, place by place; what every step keeps of the
store is read off (20_memory.md, 10_state.md). -/

namespace Sys2Proof.Machine

variable {s t : State}

/-! ### Places whose byte or word decides -/

/-- What a step about to write a command can do: what the command's row does. -/
theorem step_issue_ensures {P : State → Prop} {w : List Byte} (hp : s.phase = .issue w)
    (sent : ∀ i, w = encode s.par.sync i → s.tp.isOpen = true → s.writes i = true → P (s.tick.sendInstr i))
    (kick : w = [Cmd.version] → s.tp.isOpen = true → s.st = .syncing →
      P ((s.tick.wrote [Cmd.version]).gotoHs .kicked))
    (abort : w = [Cmd.abort] → s.tp.isOpen = true → s.st = .streaming →
      P ((s.tick.wrote [Cmd.abort]).goto (.stream .aborted)))
    (returned : ∀ c i, w = encode s.par.sync i → s.tp.isOpen = true → s.allows i = true → i ≠ .abort →
      P (s.tick.ret c)) :
    Answer.Ensures (step s) P := by
  cases decoded : decode s.par.sync .command w with
  | reject r =>
    rw [step_issue_rejected hp decoded]
    exact Answer.ensures_refused.mpr trivial
  | instr i =>
    obtain ⟨-, hc, bytes⟩ := encodeOfDecodeIsTheBytes _ _ _ _ decoded
    rw [step_issue hp decoded]
    rcases exec_command_cases (s := s.tick) hp hc with
      ⟨r, run⟩ | ⟨ho, allowed, ⟨written, run⟩ | ⟨rfl, run⟩ | ⟨rfl, run⟩ | ⟨other, c, run⟩⟩ <;>
      rw [run] <;> simp only [Answer.ensures_refused, Answer.ensures_next]
    · exact sent i bytes.symm (by simpa using ho) written
    · exact kick bytes.symm (by simpa using ho) (by simpa [State.allows] using allowed)
    · exact abort bytes.symm (by simpa using ho) (by simpa [State.allows] using allowed)
    · exact returned c i bytes.symm (by simpa using ho) allowed other

/-- What a step that judges a response can do: it returns a code, holds the presence byte, settles check
disk, or sets the flag that its exchange asks for. -/
theorem step_judge_ensures {P : State → Prop} {a : Await} {bs : List Byte} (hp : s.phase = .judge a bs)
    (returned : ∀ c, P (s.tick.ret c))
    (held : a = .diskPresence → ∀ f, P (s.tick.holdPresence f))
    (settled : ∀ f, a = .diskProtect f → ∀ x, P (s.tick.finishCheckDisk f x))
    (protection : a = .wpByte → ∀ x, P (s.tick.setProtect x .ok))
    (density : a = .density → ∀ x, P (s.tick.setDensity x)) : Answer.Ensures (step s) P := by
  cases bs with
  | nil =>
    rw [step_judge_silence hp]
    exact Answer.ensures_next.mpr (returned _)
  | cons b bs =>
    cases a with
    | rsp1 => rw [step_judge_rsp1 hp]; exact Answer.ensures_next.mpr (returned _)
    | rspT => rw [step_judge_rspT hp]; exact Answer.ensures_next.mpr (returned _)
    | diskPresence => rw [step_judge_presence hp]; exact Answer.ensures_next.mpr (held rfl _)
    | diskProtect f => rw [step_judge_protect hp]; exact Answer.ensures_next.mpr (settled f rfl _)
    | wpByte => rw [step_judge_wpByte hp]; exact Answer.ensures_next.mpr (protection rfl _)
    | density =>
      rw [step_judge_density hp, Answer.ensures_next]
      split
      · exact density rfl _
      · split
        · exact density rfl _
        · exact returned _
    | rspW =>
      rw [step_judge_byte hp (i := decodeRspW b) fun _ => rfl, exec_decodeRspW (s := s.tick) hp]
      exact Answer.ensures_next.mpr (returned _)

/-- What a step of the handshake can do: a look at a window that holds a reply begins to record it, and
every other one is `hsStep`. -/
theorem step_hs_ensures {P : State → Prop} {k : HsStep} (hp : s.phase = .hs k)
    (matched : k = .look → s.st = .syncing → ∀ major minor dot,
      P ((s.tick.setFw { s.tick.fw with major := major }).gotoHs (.minor minor dot)))
    (moved : Answer.Ensures (s.tick.hsStep k) P) : Answer.Ensures (step s) P := by
  by_cases look : k = .look
  · subst look
    cases decoded : decode s.par.sync .version s.hs.vwin.bytes with
    | reject r => rw [step_look_unmatched hp decoded]; exact moved
    | instr i =>
      obtain ⟨-, hc, -⟩ := encodeOfDecodeIsTheBytes _ _ _ _ decoded
      rw [step_look_matched hp decoded]
      cases i <;> cases hc
      simp only [exec, execVersionReply, Answer.ensures_ite, Answer.ensures_next, Answer.ensures_refused,
        implies_true, and_true]
      exact fun here => matched rfl here.1 _ _ _
  · rw [step_hs hp look]
    exact moved

/-- What a step of the streamed read can do: a data byte, the echo, or `streamStep`. -/
theorem step_stream_ensures {P : State → Prop} {k : StreamStep} (hp : s.phase = .stream k)
    (data : ∀ b, k = .byte b → s.st = .streaming → P (s.tick.nextSymbol (streamBits s.par b)))
    (echo : k = .echo → s.st = .streaming → P s.tick.streamFinished)
    (moved : Answer.Ensures (s.tick.streamStep k) P) : Answer.Ensures (step s) P := by
  cases k with
  | byte b =>
    cases sent : s.str.abortSent with
    | true => rw [step_echo_byte hp sent]; exact moved
    | false =>
      rw [step_stream_data hp sent]
      simp only [exec, execStreamData, Answer.ensures_ite, Answer.ensures_next, Answer.ensures_refused,
        implies_true, and_true]
      exact fun here => data b rfl here.1
  | echo =>
    cases decoded : decode s.par.sync .echo s.str.awin.bytes with
    | reject r => rw [step_echo_unmatched hp decoded]; exact moved
    | instr i =>
      obtain ⟨-, hc, -⟩ := encodeOfDecodeIsTheBytes _ _ _ _ decoded
      rw [step_echo_matched hp decoded]
      cases i <;> cases hc
      simp only [exec, execAbortEcho, Answer.ensures_ite, Answer.ensures_next, Answer.ensures_refused,
        implies_true, and_true]
      exact fun here => echo rfl here.1
  | _ => rw [step_stream hp fun _ => rfl]; exact moved

/-- What a step of the scan can do: its end, or one iteration. -/
theorem step_scan_ensures {P : State → Prop} (hp : s.phase = .scan) (ended : P s.tick.endScan)
    (iterated : P (s.tick.setDec (s.dec.iterate s.par s.cap))) : Answer.Ensures (step s) P := by
  cases done : scanOver s.dec s.cap with
  | true => rw [step_scan_over hp done]; exact Answer.ensures_next.mpr ended
  | false => rw [step_scan_iterate hp done]; exact Answer.ensures_next.mpr iterated

/-! ### The store -/

/-- What the engine and the adapter keep from one operation to the next. -/
structure Store where
  cap : Capture
  dec : Decoder
  ad : Adapter
  diskPresent : Bool
  writeProtected : Bool
  isHDMode : Bool
  par : Params

/-- The machine's store. -/
def State.store (s : State) : Store :=
  { cap := s.cap, dec := s.dec, ad := s.ad, diskPresent := s.diskPresent
    writeProtected := s.writeProtected, isHDMode := s.isHDMode, par := s.par }

/-- Everything a step can do to the store. -/
inductive StoreStep (s t : State) : Prop where
  | kept (place : t.phase ≠ .scan) (store : t.store = s.store)
  | captured (place : t.phase ≠ .scan) (c : Capture) (canonical : s.cap.buf.wf = true → c.buf.wf = true)
      (store : t.store = { s.store with cap := c })
  | started (isHD : Bool) (cylinder head expected : Nat)
      (store : t.store = { s.store with dec := Decoder.initial isHD cylinder head expected })
  | iterated (place : s.phase = .scan)
      (store : t.store = { s.store with dec := s.dec.iterate s.par s.cap })
  | finished (place : t.phase ≠ .scan) (ad : Adapter)
      (canonical : s.dec.finish.trk.wf = true → cacheWf s.ad.cache = true → cacheWf ad.cache = true)
      (store : t.store = { s.store with dec := s.dec.finish, ad := ad })
  | adapted (place : t.phase ≠ .scan) (ad : Adapter)
      (canonical : cacheWf s.ad.cache = true → cacheWf ad.cache = true)
      (store : t.store = { s.store with ad := ad })
  | checkedDisk (place : t.phase ≠ .scan) (f : Presence) (bs : List Byte)
      (judged : s.phase = .judge (.diskProtect f) bs) (x : Bool)
      (store : t.store = { s.store with diskPresent := x })
  | checkedProtection (place : t.phase ≠ .scan)
      (judged : (∃ bs, s.phase = .judge .wpByte bs) ∨ ∃ p c, s.phase = .protect p c) (x : Bool)
      (store : t.store = { s.store with writeProtected := x })
  | checkedDensity (place : t.phase ≠ .scan) (bs : List Byte) (judged : s.phase = .judge .density bs)
      (x : Bool) (store : t.store = { s.store with isHDMode := x })
  | attached (place : t.phase ≠ .scan) (idle : s.phase = .idle) (path : String) (flow reset : Bool)
      (rest : List Op) (ops : s.ops = .attach path flow reset :: rest) (ad : Adapter)
      (empty : ad.cache = []) (present prot hd : Bool)
      (store : t.store = { s.store with
        ad := ad, diskPresent := present, writeProtected := prot, isHDMode := hd })

/-- A select of a track leaves the store. -/
theorem State.startSelectTrack_store (h : t.store = s.store) (n : Nat) :
    (t.startSelectTrack n).Ensures (StoreStep s) := by
  simp only [State.startSelectTrack, Answer.ensures_ite, Answer.ensures_next, State.startCommand_ensures]
  exact ⟨fun _ => .kept nofun h, fun _ _ => .kept nofun h⟩

theorem State.startReadTrack_store (h : t.store = s.store) : t.startReadTrack.Ensures (StoreStep s) := by
  simp only [State.startReadTrack, State.startCommand_ensures]
  refine fun _ => .captured nofun t.newCapture (fun _ => rfl) ?_
  rw [← h]
  rfl

theorem State.startDecode_store (h : t.store = s.store) (isHD : Bool) (cylinder head expected : Nat) :
    (t.startDecode isHD cylinder head expected).Ensures (StoreStep s) := by
  simp only [State.startDecode, Answer.ensures_ite, Answer.ensures_next, Answer.ensures_refused, implies_true,
    true_and]
  refine fun _ => .started isHD cylinder head expected ?_
  rw [← h]
  rfl

/-- A track stored in the cache leaves the rest of the store. -/
theorem State.captureDone_store (t : State) (track head : Nat) (trk : Track) :
    (t.captureDone track head trk).phase ≠ .scan ∧ (t.captureDone track head trk).store = { t.store with
      ad := { t.ad with cache := cacheSet t.ad.cache { track := track, head := head, trk := trk } } } := by
  simp only [State.captureDone]
  split <;> exact ⟨nofun, rfl⟩

theorem State.startAttempt_store (h : t.store = s.store) (track head attempt : Nat) :
    (t.startAttempt track head attempt).Ensures (StoreStep s) := by
  simp only [State.startAttempt, Answer.ensures_ite]
  exact ⟨fun _ => State.startSelectTrack_store (t := t.push _) h _,
    fun _ => State.startSelectTrack_store (t := t.push _) h _⟩

/-- A failed attempt leaves the store, or stores the filler track. -/
theorem State.attemptFailed_store (h : t.store = s.store) (track head attempt : Nat) :
    (t.attemptFailed track head attempt).Ensures (StoreStep s) := by
  simp only [State.attemptFailed, Answer.ensures_ite, Answer.ensures_next]
  refine ⟨fun _ => State.startAttempt_store h _ _ _, fun _ => ?_⟩
  obtain ⟨place, store⟩ := t.captureDone_store track head (fillerTrack (sectorsPerTrack t.isHDMode))
  rw [h] at store
  have cache : t.ad = s.ad := congrArg Store.ad h
  refine .adapted place _ (fun wf => cacheSet_wf (Track.fill_wf _ _ rfl) ?_) store
  rw [cache]
  exact wf

/-- The store after the start of an operation. -/
theorem startOp_store {o : Op} {rest : List Op} (hp : s.phase = .idle) (ho : s.ops = o :: rest) :
    (startOp o { s with ops := rest }).Ensures (StoreStep s) := by
  have same : State.store { s with ops := rest } = s.store := rfl
  cases o with
  | openPort | runCommand | enableWriting =>
    simp only [startOp, State.startOpenPort, State.startRunCommand, State.startEnableWriting,
      Answer.ensures_ite, Answer.ensures_next, Answer.ensures_refused, implies_true, true_and, and_true]
    intros
    exact .kept nofun rfl
  | closePort =>
    simp only [startOp, State.startClosePort]
    split <;> simp only [Answer.ensures_next, Answer.ensures_refused] <;> exact .kept nofun rfl
  | rewind | checkWriteProtect | checkDensity | diagnostics =>
    simp only [startOp, State.startCommand_ensures]
    exact fun _ => .kept nofun rfl
  | selectTrack n => exact State.startSelectTrack_store same n
  | selectSurface h =>
    simp only [startOp, State.startSelectSurface, Answer.ensures_ite, State.startCommand_ensures,
      Answer.ensures_refused]
    exact ⟨fun _ _ => .kept nofun rfl, fun _ => ⟨fun _ _ => .kept nofun rfl, fun _ => trivial⟩⟩
  | enableReading on =>
    simp only [startOp, State.startEnableReading, Answer.ensures_ite, State.startCommand_ensures]
    exact ⟨fun _ _ => .kept nofun rfl, fun _ _ => .kept nofun rfl⟩
  | checkDisk force =>
    simp only [startOp, State.startCheckDisk, Answer.ensures_ite, Answer.ensures_next,
      State.startCommand_ensures, Answer.ensures_refused, implies_true, and_true]
    exact ⟨fun _ _ => .kept nofun rfl, fun _ _ => .kept nofun rfl⟩
  | readTrack => exact State.startReadTrack_store same
  | writeTrack precomp mfm nbits =>
    simp only [startOp, State.startWriteTrack, Answer.ensures_ite, Answer.ensures_refused, implies_true,
      true_and, State.guardWrite_ensures, Answer.ensures_next]
    exact fun _ => ⟨fun _ => .kept nofun rfl, fun _ _ => .kept nofun rfl⟩
  | loadCapture raw bitLength =>
    simp only [startOp, State.startLoadCapture, Answer.ensures_ite, Answer.ensures_refused, implies_true,
      true_and, Answer.ensures_next]
    exact fun _ => .captured nofun _ (fun _ => Memory.ofBytes_wf 0 raw) rfl
  | decode isHD cylinder head expected => exact State.startDecode_store same isHD cylinder head expected
  | readBit bs c =>
    simp only [startOp, State.startReadBit, Answer.ensures_ite, Answer.ensures_refused, implies_true,
      true_and]
    intro
    split
    · exact Answer.ensures_refused.mpr trivial
    · exact Answer.ensures_next.mpr (.kept nofun rfl)
  | writeBit bs c x =>
    simp only [startOp, State.startWriteBit, Answer.ensures_ite, Answer.ensures_refused, implies_true,
      true_and, Answer.ensures_next]
    exact fun _ => .kept nofun rfl
  | extract | crc16 =>
    exact Answer.ensures_next.mpr (.kept nofun rfl)
  | attach path flow reset =>
    simp only [startOp, State.startAttach, State.startOpenPort, Answer.ensures_ite, Answer.ensures_refused,
      implies_true, true_and, and_true, Answer.ensures_next]
    exact fun _ _ _ => .attached nofun hp path flow reset rest ho _ rfl _ _ _ rfl
  | detach =>
    simp only [startOp, State.startDetach, State.onDevice_ensures, State.startClosePort]
    intro
    split <;> simp only [Answer.ensures_next, Answer.ensures_refused] <;>
      exact .adapted nofun _ (fun _ => rfl) rfl
  | seek track =>
    simp only [startOp, State.startSeek, State.onDevice_ensures, Answer.ensures_next]
    refine fun _ => .adapted nofun _ (fun wf => ?_) rfl
    unfold Adapter.moveTo
    split
    · exact wf
    · rfl
  | setSector side cylinder head sector size =>
    simp only [startOp, State.startSetSector, State.onDevice_ensures, Answer.ensures_next]
    refine fun _ => .adapted nofun _ ?_ rfl
    exact id
  | readByte head offset =>
    simp only [startOp, State.startReadByte, State.onDevice_ensures]
    intro
    split
    · exact Answer.ensures_next.mpr (.kept nofun rfl)
    · exact State.startAttempt_store (s := s) (t := State.push { s with ops := rest } _) rfl _ _ _
  | writeByte | writeback | formatSupported | writeprot | diskFlags | sideFlags =>
    simp only [startOp, State.startNoOp, State.startFormatSupported, State.startWriteprot,
      State.startFlags, State.onDevice_ensures, Answer.ensures_next]
    exact fun _ => .kept nofun rfl

/-- The store after the code of a called operation has come back. -/
theorem resume_store (f : Frame) (c : Code) (h : t.store = s.store) :
    (resume f c t).Ensures (StoreStep s) := by
  cases f with
  | rewind | abortPoll | closing | attachDensity | captureDecode | seekHead | serve =>
    exact Answer.ensures_next.mpr (.kept nofun h)
  | enableOn | enableOff | enableWrite =>
    simp only [resume, Answer.ensures_next, State.afterEnable, State.afterDisable, State.afterEnableWrite,
      State.moveAndReturn]
    split <;> exact .kept nofun h
  | density | payload =>
    simp only [resume, Answer.ensures_next, State.afterDensity, State.afterWriteCommand]
    split <;> exact .kept nofun h
  | features =>
    simp only [resume, Answer.ensures_next, State.afterFeatures]
    split <;> exact .kept nofun h
  | streamStart =>
    simp only [resume, Answer.ensures_next, State.afterStreamStart]
    split
    · exact .kept nofun h
    · refine .kept ?_ h
      simp only [State.goto_fields]
      split <;> exact nofun
  | stalled =>
    refine Answer.ensures_next.mpr (.captured nofun _ ?_ (congrArg (fun u : Store => { u with
      cap := { t.cap with bitLength := t.written } }) h))
    rw [show t.cap = s.cap from congrArg Store.cap h]
    exact id
  | attachOpen =>
    simp only [resume, Answer.ensures_next, State.afterAttachOpen]
    split
    · refine .adapted nofun _ ?_ (congrArg (fun u : Store => { u with
        ad := { t.ad with attached := true } }) h)
      rw [show t.ad = s.ad from congrArg Store.ad h]
      exact id
    · exact .kept nofun h
  | capture k track head attempt =>
    cases k with
    | calOut | calBack => exact State.startSelectTrack_store (t := t.push _) h _
    | select =>
      simp only [resume, State.afterCapture, Answer.ensures_ite, State.startSelectSurface,
        State.startCommand_ensures, Answer.ensures_refused]
      exact ⟨fun _ => ⟨fun _ _ => .kept nofun h, fun _ => ⟨fun _ _ => .kept nofun h, fun _ => trivial⟩⟩,
        fun _ => State.attemptFailed_store h _ _ _⟩
    | surface =>
      simp only [resume, State.afterCapture, Answer.ensures_ite]
      exact ⟨fun _ => State.startReadTrack_store (t := t.push _) h, fun _ => State.attemptFailed_store h _ _ _⟩
    | read =>
      simp only [resume, State.afterCapture, Answer.ensures_ite]
      exact ⟨fun _ => State.startDecode_store (t := t.push _) h _ _ _ _,
        fun _ => State.attemptFailed_store h _ _ _⟩

theorem State.hsFail_store (h : t.store = s.store) (e : Code) : StoreStep s (t.hsFail e) := by
  unfold State.hsFail
  split <;> exact .kept nofun h

/-- The store after a step inside the handshake. -/
theorem hsStep_store (k : HsStep) (h : t.store = s.store) : (t.hsStep k).Ensures (StoreStep s) := by
  match k with
  | .open =>
    simp only [State.hsStep, Answer.ensures_next, State.hsOpen]
    split <;> exact .kept nofun h
  | .configure =>
    simp only [State.hsStep, State.onChannel_ensures, State.hsConfigure]
    intro
    split <;> exact .kept nofun h
  | .top =>
    simp only [State.hsStep, Answer.ensures_next, State.hsTop]
    split
    · exact State.hsFail_store h _
    · exact .kept nofun h
  | .byte bs =>
    simp only [State.hsStep, Answer.ensures_next, State.hsPolled, State.hsEmptyPoll]
    split
    · split
      · split <;> exact .kept nofun h
      · exact .kept nofun h
    · exact .kept nofun h
  | .look =>
    simp only [State.hsStep, Answer.ensures_next, State.hsNoMatch]
    split
    · exact State.hsFail_store h _
    · exact .kept nofun h
  | .query =>
    simp only [State.hsStep, Answer.ensures_next, State.hsQuery]
    split <;> exact .kept nofun h
  | .features fs =>
    simp only [State.hsStep, Answer.ensures_next, State.hsFeatures]
    split <;> exact .kept nofun h
  | .check =>
    simp only [State.hsStep, Answer.ensures_next, State.hsCheck]
    split <;> exact .kept nofun h
  | .drop | .syncRd | .syncWr | .hello | .poll | .purge1 | .purge2 | .featBytes | .normalRd | .normalWr | .dtrLow
  | .rtsLow | .dtrHigh | .rtsHigh | .close _ =>
    simp only [State.hsStep, State.onChannel_ensures]
    exact fun _ => .kept nofun h
  | .enter | .greet | .zeroWindow | .zeroSeen | .zeroEmpty | .clock | .shift _ | .kicked | .minor _ _
  | .control _ | .settle | .flags2 _ _ | .build _ | .ready | .settleLow | .settleHigh | .closed _ =>
    exact Answer.ensures_next.mpr (.kept nofun h)

/-- The next capture bit of a data byte is written into the capture, or the store is kept. -/
theorem State.nextSymbol_store (h : t.store = s.store) (xs : List Bool) : StoreStep s (t.nextSymbol xs) := by
  rcases t.nextSymbol_cases xs with ⟨-, next⟩ | ⟨-, -, next⟩ | ⟨x, rest, -, -, next⟩ <;> rw [next]
  · exact .kept nofun h
  · exact .kept nofun h
  · refine .captured nofun _ ?_ (congrArg (fun u : Store => { u with cap := { t.cap with
      buf := (writeBit t.cap.size t.cap.buf t.str.wcur x).1 } }) h)
    rw [show t.cap = s.cap from congrArg Store.cap h]
    exact writeBit_wf _ _ _

/-- The store after a step inside the streamed read. -/
theorem streamStep_store (k : StreamStep) (h : t.store = s.store) :
    (t.streamStep k).Ensures (StoreStep s) := by
  cases k with
  | top =>
    simp only [State.streamStep, Answer.ensures_next, State.streamTop]
    split <;> exact .kept nofun h
  | poll =>
    simp only [State.streamStep, State.streamPoll, State.onChannel_ensures]
    exact fun _ => .kept nofun h
  | got =>
    simp only [State.streamStep, Answer.ensures_next, State.streamGot]
    split <;> exact .kept nofun h
  | bytes =>
    simp only [State.streamStep, Answer.ensures_next, State.streamBytes]
    split <;> exact .kept nofun h
  | symbols xs => exact Answer.ensures_next.mpr (State.nextSymbol_store h xs)
  | aborted =>
    rw [State.streamStep, Answer.ensures_next]
    obtain ⟨rest, -, next⟩ | ⟨-, next⟩ := t.streamAborted_cases <;> rw [next] <;> exact .kept nofun h
  | enter | initWindow | initStall | initSent | initUser | initCursor | chunk | byte | echo | advance
  | user | leaveFlag | leaveState | stalled | stalledState =>
    exact Answer.ensures_next.mpr (.kept nofun h)

/-- A write whose count is examined leaves the store. -/
theorem State.send_store (h : t.store = s.store) (bs : List Byte) (e : Code) {p : Phase} (hp : p ≠ .scan) :
    StoreStep s (t.send bs e p) := by
  obtain ⟨-, next⟩ | ⟨-, next⟩ := t.send_cases bs e p <;> rw [next]
  · exact .kept hp h
  · exact .kept nofun h

theorem afterWrite_ne_scan (i : Instr) : afterWrite i ≠ .scan := by
  unfold afterWrite
  split <;> exact nofun

/-- The end of a scan writes the decoder's outputs, and the cache if a capture waits for it. -/
theorem State.endScan_store (h : t.store = s.store) : StoreStep s t.endScan := by
  have dec : t.dec = s.dec := congrArg Store.dec h
  have ad : t.ad = s.ad := congrArg Store.ad h
  have base : (t.setDec t.dec.finish).store = { s.store with dec := s.dec.finish } := by
    rw [← h, ← dec]
    rfl
  simp only [State.endScan]
  split
  · next track head rest waiting =>
    obtain ⟨place, store⟩ := ((t.setDec t.dec.finish).pop rest).captureDone_store track head t.dec.finish.trk
    refine .finished place { s.ad with cache := cacheSet s.ad.cache ⟨track, head, s.dec.finish.trk⟩ }
      (fun wf => cacheSet_wf wf) (store.trans ?_)
    rw [← h, ← dec, ← ad]
    rfl
  · exact .finished nofun s.ad (fun _ => id) base

/-! ### The step -/

/-- The environment's part of a step is about nothing of the store, and about no place. -/
theorem StoreStep.of_tick (h : StoreStep s.tick t) : StoreStep s t := by
  cases h with
  | kept place store => exact .kept place store
  | captured place c canonical store => exact .captured place c canonical store
  | started isHD cylinder head expected store => exact .started isHD cylinder head expected store
  | iterated place store => exact .iterated place store
  | finished place ad canonical store => exact .finished place ad canonical store
  | adapted place ad canonical store => exact .adapted place ad canonical store
  | checkedDisk place f bs judged x store => exact .checkedDisk place f bs judged x store
  | checkedProtection place judged x store => exact .checkedProtection place judged x store
  | checkedDensity place bs judged x store => exact .checkedDensity place bs judged x store
  | attached place idle path flow reset rest ops ad empty present prot hd store =>
    exact .attached place idle path flow reset rest ops ad empty present prot hd store

/-- A step that reads a byte of a response. -/
theorem step_await_onChannel {a : Await} (hp : s.phase = .await a) :
    step s = s.tick.onChannel (s.tick.readTo 1 (.judge a)) :=
  step_eq_of_moved (by simp [State.fetch, hp])

/-- A code that no operation waits for ends the worker's operation. -/
theorem step_ret_unwaited {c : Code} (hp : s.phase = .ret c) (hf : s.frames = []) :
    step s = .next (s.tick.goto .idle) :=
  step_eq_of_moved (by simp [State.fetch, hp, State.handBack, hf])

theorem afterCommandByte_ne_scan (p : Option Byte) : afterCommandByte p ≠ .scan := by
  cases p <;> exact nofun

/-- The framing's bits go to an empty capture buffer. -/
theorem State.blockVerdict_store (h : t.store = s.store) (v : BlockVerdict) :
    StoreStep s (t.blockVerdict v) := by
  cases v with
  | more => exact .kept nofun h
  | done e bits =>
    refine .captured nofun { t.cap with buf := (fillBits t.cap.size bits [] { pos := 0, bit := 0 }).1 }
      (fun _ => fillBits_wf _ _ _ rfl) ?_
    rw [← h]
    rfl

theorem State.seekStep_store (h : t.store = s.store) (track head : Nat) :
    (t.seekStep track head).Ensures (StoreStep s) := by
  simp only [State.seekStep, Answer.ensures_ite, Answer.ensures_next]
  refine ⟨fun _ => .kept nofun h, fun _ => ?_⟩
  split
  · exact Answer.ensures_next.mpr (.kept nofun h)
  · exact State.startAttempt_store (t := t.push _) h _ _ _

/-- Every step changes the store as `StoreStep` says. -/
theorem step_store (s : State) : Answer.Ensures (step s) (StoreStep s) := by
  have same : s.tick.store = s.store := rfl
  have kept : ∀ {t : State}, t.phase ≠ .scan → t.store = s.store → Answer.Ensures (.next t) (StoreStep s) :=
    fun place store => Answer.ensures_next.mpr (.kept place store)
  cases hp : s.phase with
  | idle =>
    cases ho : s.ops with
    | nil => rw [step_unasked hp ho]; exact kept (by simp [hp]) rfl
    | cons o rest =>
      rw [step_start hp ho]
      exact fun t next => (startOp_store (s := s.tick) hp ho t next).of_tick
  | pause w => rw [step_pause hp]; exact kept nofun rfl
  | mark w => rw [step_mark hp]; exact kept nofun rfl
  | issue w =>
    exact step_issue_ensures hp
      (fun i _ _ _ => State.send_store (t := { s.tick with frames := waitingFor i ++ s.frames }) same _ _ (afterWrite_ne_scan i))
      (fun _ _ _ => .kept nofun rfl) (fun _ _ _ => .kept nofun rfl) fun _ _ _ _ _ _ => .kept nofun rfl
  | pauseRaw c p => rw [step_pauseRaw hp]; exact kept nofun rfl
  | markRaw c p => rw [step_markRaw hp]; exact kept nofun rfl
  | raw c p =>
    rw [step_raw hp, State.writeRaw, State.onChannel_ensures]
    exact fun _ => State.send_store same _ _ (afterCommandByte_ne_scan p)
  | param p =>
    rw [step_param hp, State.writeParam, State.onChannel_ensures]
    exact fun _ => State.send_store same _ _ (by exact nofun)
  | await a =>
    rw [step_await_onChannel hp, State.onChannel_ensures]
    exact fun _ => .kept (Phase.noConfusion ·) rfl
  | judge a bs =>
    refine step_judge_ensures hp (fun _ => .kept nofun rfl) (fun _ _ => .kept nofun rfl)
      (fun f judged x => ?_)
      (fun judged x => .checkedProtection nofun (.inl ⟨bs, by rw [hp, judged]⟩) x rfl)
      (fun judged x => .checkedDensity nofun bs (by rw [hp, judged]) x rfl)
    obtain ⟨-, next⟩ | ⟨present, c, -, -, next⟩ := s.tick.finishCheckDisk_cases f x <;> rw [next]
    · exact .kept nofun rfl
    · exact .checkedDisk nofun f bs (by rw [hp, judged]) present rfl
  | protect prot c =>
    rw [step_protect hp]
    exact Answer.ensures_next.mpr (.checkedProtection nofun (.inr ⟨_, _, hp⟩) prot rfl)
  | length n c =>
    rw [step_length hp]
    exact Answer.ensures_next.mpr (.captured nofun { s.cap with bitLength := n } id rfl)
  | exit c => rw [step_exit hp]; exact kept nofun rfl
  | ret c =>
    cases hf : s.frames with
    | nil => rw [step_ret_unwaited hp hf]; exact kept nofun rfl
    | cons f rest => rw [step_ret hp hf]; exact resume_store f c rfl
  | hs k =>
    exact step_hs_ensures hp (fun _ _ _ _ _ => .kept nofun rfl) (hsStep_store k rfl)
  | closing =>
    rw [step_closing hp, State.finishClose, State.onChannel_ensures]
    exact fun _ => .kept nofun rfl
  | shut => rw [step_shut hp]; exact kept nofun rfl
  | stream k =>
    exact step_stream_ensures hp (fun _ _ _ => State.nextSymbol_store same _)
      (fun _ _ => .captured nofun { s.cap with bitLength := s.written } id rfl) (streamStep_store k rfl)
  | block =>
    rw [step_block hp, State.blockPoll, State.onChannel_ensures]
    exact fun _ => .kept (Phase.noConfusion ·) rfl
  | framing bs => rw [step_framing hp]; exact kept nofun rfl
  | framed => rw [step_framed hp]; exact Answer.ensures_next.mpr (State.blockVerdict_store same _)
  | payload precomp =>
    rw [step_payload hp, State.writePayload, State.onChannel_ensures]
    exact fun _ => .kept nofun rfl
  | scan => exact step_scan_ensures hp (State.endScan_store same) (.iterated hp rfl)
  | seek track head => rw [step_seek hp]; exact State.seekStep_store same _ _

end Sys2Proof.Machine
end

section
/-! SUPPORT. What every step keeps of the store: the parameters, the canonical forms, the cached flags and
the bounds of the scan (00_scope.md, 20_memory.md, 42_commands.md, 45_mfm_decoder.md). -/

namespace Sys2Proof.Machine

variable {s t : State}

theorem StoreStep.par (h : StoreStep s t) : t.par = s.par := by
  cases h <;> exact congrArg Store.par ‹t.store = _›

/-- Settles O54: no change of the store is a change of a parameter. -/
theorem stepsKeepTheParameters : Obligations.StepsKeepTheParameters :=
  fun s t next => (step_store s t next).par

theorem Decoder.finish_wf (d : Decoder) (h : d.trk.wf = true) : d.finish.trk.wf = true := by
  unfold Decoder.finish
  exact Track.fill_wf _ _ h

/-- The canonical forms of a store. -/
def Store.Canonical (u : Store) : Prop :=
  u.cap.buf.wf = true ∧ u.dec.trk.wf = true ∧ cacheWf u.ad.cache = true

/-- Every change of the store keeps the canonical forms. -/
theorem StoreStep.canonical (h : StoreStep s t) (inv : s.store.Canonical) : t.store.Canonical := by
  obtain ⟨cap, dec, cache⟩ := inv
  cases h with
  | kept _ store => rw [store]; exact ⟨cap, dec, cache⟩
  | captured _ c canonical store => rw [store]; exact ⟨canonical cap, dec, cache⟩
  | started _ _ _ _ store => rw [store]; exact ⟨cap, rfl, cache⟩
  | iterated _ store => rw [store]; exact ⟨cap, Decoder.iterate_wf _ _ dec, cache⟩
  | finished _ ad canonical store =>
    rw [store]
    exact ⟨cap, Decoder.finish_wf _ dec, canonical (Decoder.finish_wf _ dec) cache⟩
  | adapted _ ad canonical store => rw [store]; exact ⟨cap, dec, canonical cache⟩
  | checkedDisk _ _ _ _ _ store => rw [store]; exact ⟨cap, dec, cache⟩
  | checkedProtection _ _ _ store => rw [store]; exact ⟨cap, dec, cache⟩
  | checkedDensity _ _ _ _ store => rw [store]; exact ⟨cap, dec, cache⟩
  | attached _ _ _ _ _ _ _ ad empty _ _ _ store =>
    rw [store]
    exact ⟨cap, dec, by rw [empty]; rfl⟩

/-- Settles O55. -/
theorem stepsKeepTheCanonicalForms : Obligations.StepsKeepTheCanonicalForms :=
  fun s t inv next => (step_store s t next).canonical inv

/-- Settles O59: only the checks and the start of an attach change the store in a cached flag. -/
theorem cachedFlagsAreWrittenByTheirChecksOnly : Obligations.CachedFlagsAreWrittenByTheirChecksOnly := by
  intro s t next
  cases step_store s t next with
  | attached _ idle path flow reset rest ops => exact .inl ⟨idle, path, flow, reset, rest, ops⟩
  | checkedDisk _ f bs judged x store =>
    exact .inr ⟨fun _ => congrArg Store.isHDMode store, fun other => absurd judged (other f bs),
      fun _ _ => congrArg Store.writeProtected store⟩
  | checkedProtection _ judged x store =>
    refine .inr ⟨fun _ => congrArg Store.isHDMode store, fun _ => congrArg Store.diskPresent store,
      fun unjudged unwritten => ?_⟩
    obtain ⟨bs, judged⟩ | ⟨p, c, written⟩ := judged
    · exact absurd judged (unjudged bs)
    · exact absurd written (unwritten p c)
  | checkedDensity _ bs judged x store =>
    exact .inr ⟨fun other => absurd judged (other bs), fun _ => congrArg Store.diskPresent store,
      fun _ _ => congrArg Store.writeProtected store⟩
  | _ =>
    have store := ‹t.store = _›
    exact .inr ⟨fun _ => congrArg Store.isHDMode store, fun _ => congrArg Store.diskPresent store,
      fun _ _ => congrArg Store.writeProtected store⟩

/-- A step after which a scan is under way has begun it or iterated it, so its decoder is bounded. -/
theorem StoreStep.bounded (h : StoreStep s t) (ok : s.par.ok = true)
    (inv : s.phase = .scan → s.dec.Bounded s.par) (scanning : t.phase = .scan) : t.dec.Bounded t.par := by
  rw [h.par]
  cases h with
  | started isHD cylinder head expected store =>
    rw [show t.dec = _ from congrArg Store.dec store]
    exact Decoder.initial_bounded _ isHD cylinder head expected
  | iterated place store =>
    rw [show t.dec = _ from congrArg Store.dec store]
    exact Decoder.iterate_bounded ok (inv place) s.cap
  | _ => exact absurd scanning ‹t.phase ≠ .scan›

/-- Settles O50. -/
theorem observedSectorsStayInBounds : Obligations.ObservedSectorsStayInBounds :=
  ⟨fun s t ok inv next scanning => (step_store s t next).bounded ok inv scanning,
    fun p cap isHD cylinder head expected n ok =>
      have initial := Decoder.initial_bounded p isHD cylinder head expected
      ⟨initial, Decoder.scan_bounded ok n initial cap⟩⟩

end Sys2Proof.Machine
end

section
/-! SUPPORT. What one step can do to the control of the machine: the engine state, the Transport Session, the
engine's place, the waiting operations and the streaming registers. One walk over the places shows that
every step keeps the session consistent (10_state.md section 3, 41_handshake.md section 1) and the stream in
its bounds (43_streaming_read.md section 2). -/

namespace Sys2Proof.Machine

variable {s t : State}

/-- The step keeps the two invariants, and moves the engine state as the transition table allows. -/
def State.Keeps (s t : State) : Prop :=
  (s.SessionInv → s.st.mayMove t.st = true ∧ t.SessionInv) ∧ (s.StreamInv → t.StreamInv)

theorem EngineState.mayMove_refl (a : EngineState) : a.mayMove a = true := by
  cases a <;> rfl

/-! ### What the invariants say of a place -/

theorem State.SessionInv.isOpen (h : s.SessionInv) (out : s.st ≠ .closed)
    (here : s.phase.justClosed = false) : s.tp.isOpen = true :=
  h.1 (.inl out) here

theorem State.SessionInv.unbound (h : s.SessionInv) (here : ¬ s.phase.inExchange) :
    ∀ f ∈ s.frames, f ≠ .streamStart ∧ f ≠ .features := by
  obtain ⟨-, -, -, tail, starts, queries⟩ := h
  intro f member
  cases frames : s.frames with
  | nil => simp [frames] at member
  | cons g rest =>
    simp only [frames, List.head?_cons, Option.some.injEq, List.tail_cons] at starts queries tail
    rw [frames] at member
    rcases List.mem_cons.mp member with rfl | below
    · exact ⟨fun e => here (starts e).2, fun e => here (queries e).2⟩
    · exact tail f below

theorem State.StreamInv.bits (h : s.StreamInv) : s.cap.bitLength ≤ 8 * s.cap.size := h.1

theorem State.StreamInv.chunk (h : s.StreamInv) : s.str.chunk.length ≤ Config.streamChunk := by
  obtain ⟨-, -, -, -, -, chunk, -⟩ := h
  exact chunk

theorem State.StreamInv.unstalled (h : s.StreamInv) (here : ¬ s.phase.inRecheck) :
    ∀ f ∈ s.frames, f ≠ .stalled := by
  obtain ⟨-, -, -, -, -, -, -, tail, stalled⟩ := h
  intro f member
  cases frames : s.frames with
  | nil => simp [frames] at member
  | cons g rest =>
    simp only [frames, List.head?_cons, Option.some.injEq, List.tail_cons] at tail stalled
    rw [frames] at member
    rcases List.mem_cons.mp member with rfl | below
    · exact fun e => here (stalled e).1
    · exact tail f below

theorem State.StreamInv.not_streaming (h : s.StreamInv) (outside : s.phase.isStream = false)
    (mark : s.phase ≠ .mark [Cmd.abort]) (issue : s.phase ≠ .issue [Cmd.abort]) : s.st ≠ .streaming := by
  obtain ⟨-, -, places, -⟩ := h
  intro streaming
  rcases places streaming with h | h | h
  · simp [h] at outside
  · exact mark h
  · exact issue h

/-! ### Steps outside the handshake and the stream -/

/-- A waiting operation that an invariant speaks of. -/
def Frame.bound : Frame → Bool
  | .streamStart | .features | .stalled => true
  | _ => false

/-- A place that no clause of the invariants speaks of, but for the waiting operations. -/
def Phase.ordinary : Phase → Bool
  | .hs _ | .stream _ | .shut | .length _ _ => false
  | _ => true

/-- The step leads to an ordinary place, or to the first step of the handshake, and calls none of the bound
operations. -/
structure Ordinary (s t : State) : Prop where
  place : t.phase.ordinary = true ∨ t.phase = .hs .open ∧ t.st = .closed
  moves : s.st.mayMove t.st = true
  unstreamed : t.st = .streaming → s.st = .streaming
  isOpen : t.st ≠ .closed → s.st ≠ .closed ∧ t.tp.isOpen = s.tp.isOpen
  frames : ∀ f ∈ t.frames, f ∈ s.frames ∨ f.bound = false
  bits : s.cap.bitLength ≤ 8 * s.cap.size → t.cap.bitLength ≤ 8 * t.cap.size
  chunk : t.str.chunk = s.str.chunk

/-- The registers that the invariants speak of, but for the place and the waiting operations. -/
structure Control where
  st : EngineState
  isOpen : Bool
  bitLength : Nat
  size : Nat
  str : Stream

def State.control (s : State) : Control :=
  { st := s.st, isOpen := s.tp.isOpen, bitLength := s.cap.bitLength, size := s.cap.size, str := s.str }

/-- A step that changes the place and the waiting operations only. -/
theorem Ordinary.of_control (place : t.phase.ordinary = true) (control : t.control = s.control)
    (frames : ∀ f ∈ t.frames, f ∈ s.frames ∨ f.bound = false) : Ordinary s t := by
  have st : t.st = s.st := congrArg Control.st control
  have isOpen : t.tp.isOpen = s.tp.isOpen := congrArg Control.isOpen control
  have bitLength : t.cap.bitLength = s.cap.bitLength := congrArg Control.bitLength control
  have size : t.cap.size = s.cap.size := congrArg Control.size control
  have str : t.str = s.str := congrArg Control.str control
  exact ⟨.inl place, st ▸ EngineState.mayMove_refl _, fun h => st ▸ h, fun h => ⟨st ▸ h, isOpen⟩, frames,
    fun h => by rw [bitLength, size]; exact h, by rw [str]⟩

/-- Nothing was called. -/
theorem Ordinary.uncalled (place : t.phase.ordinary = true) (control : t.control = s.control)
    (frames : t.frames = s.frames) : Ordinary s t :=
  .of_control place control fun _ h => .inl (frames ▸ h)

/-- One operation was called. -/
theorem Ordinary.called {f : Frame} (place : t.phase.ordinary = true) (control : t.control = s.control)
    (free : f.bound = false) (frames : t.frames = f :: s.frames) : Ordinary s t :=
  .of_control place control fun g h => by
    rw [frames] at h
    rcases List.mem_cons.mp h with rfl | h
    · exact .inr free
    · exact .inl h

/-- A step after a call is a step of the caller. -/
theorem Ordinary.of_push {f : Frame} (free : f.bound = false) (h : Ordinary (s.push f) t) : Ordinary s t :=
  { h with
    frames := fun g member => (h.frames g member).elim
      (fun below => (List.mem_cons.mp below).elim (fun e => .inr (e ▸ free)) .inl) .inr }

theorem Answer.Ensures.of_push {f : Frame} {a : Answer} (free : f.bound = false)
    (h : a.Ensures (Ordinary (s.push f))) : a.Ensures (Ordinary s) :=
  fun t next => (h t next).of_push free

/-! ### Operations and their returns -/

theorem State.startCommand_ordinary (allowed : Bool) (w : List Byte) :
    (s.startCommand allowed w).Ensures (Ordinary s) :=
  State.startCommand_ensures.mpr fun _ => .uncalled rfl rfl rfl

theorem State.startSelectTrack_ordinary (n : Nat) : (s.startSelectTrack n).Ensures (Ordinary s) := by
  simp only [State.startSelectTrack, Answer.ensures_ite, Answer.ensures_next]
  exact ⟨fun _ => .uncalled rfl rfl rfl, fun _ => State.startCommand_ordinary _ _⟩

theorem State.startSelectSurface_ordinary (h : Nat) : (s.startSelectSurface h).Ensures (Ordinary s) := by
  simp only [State.startSelectSurface, Answer.ensures_ite, Answer.ensures_refused, implies_true, and_true]
  exact ⟨fun _ => State.startCommand_ordinary _ _, fun _ _ => State.startCommand_ordinary _ _⟩

/-- A new capture has no valid bits. -/
theorem State.startReadTrack_ordinary : s.startReadTrack.Ensures (Ordinary s) :=
  State.startCommand_ensures.mpr fun _ =>
    { place := .inl rfl, moves := EngineState.mayMove_refl _, unstreamed := id, isOpen := fun h => ⟨h, rfl⟩
      frames := fun _ => .inl, bits := fun _ => Nat.zero_le _, chunk := rfl }

theorem State.startDecode_ordinary (isHD : Bool) (cylinder head expected : Nat) :
    (s.startDecode isHD cylinder head expected).Ensures (Ordinary s) := by
  simp only [State.startDecode, Answer.ensures_ite, Answer.ensures_next, Answer.ensures_refused, implies_true,
    true_and]
  exact fun _ => .uncalled rfl rfl rfl

theorem State.startClosePort_ordinary : s.startClosePort.Ensures (Ordinary s) := by
  simp only [State.startClosePort]
  split <;> simp only [Answer.ensures_next, Answer.ensures_refused]
  · exact .uncalled rfl rfl rfl
  all_goals exact .called (f := .closing) rfl rfl rfl rfl

theorem State.startOpenPort_ordinary (path : String) (flow reset : Bool) :
    (s.startOpenPort path flow reset).Ensures (Ordinary s) := by
  simp only [State.startOpenPort, Answer.ensures_ite, Answer.ensures_next, Answer.ensures_refused, implies_true,
    and_true]
  exact fun closed =>
    { place := .inr ⟨rfl, closed⟩, moves := EngineState.mayMove_refl _, unstreamed := id
      isOpen := fun h => ⟨h, rfl⟩, frames := fun _ => .inl, bits := id, chunk := rfl }

/-- A track stored in the cache hands the engine to a waiting operation. -/
theorem State.captureDone_ordinary (s : State) (track head : Nat) (trk : Track) :
    Ordinary s (s.captureDone track head trk) := by
  simp only [State.captureDone]
  split
  · next frames => exact .of_control rfl rfl fun f h => .inl (by rw [show s.frames = _ from frames]; exact .tail _ h)
  · next frames => exact .of_control rfl rfl fun f h => .inl (by rw [show s.frames = _ from frames]; exact .tail _ h)
  · exact .uncalled rfl rfl rfl

theorem State.startAttempt_ordinary (track head attempt : Nat) :
    (s.startAttempt track head attempt).Ensures (Ordinary s) := by
  simp only [State.startAttempt, Answer.ensures_ite]
  exact ⟨fun _ => (State.startSelectTrack_ordinary _).of_push rfl,
    fun _ => (State.startSelectTrack_ordinary _).of_push rfl⟩

theorem State.attemptFailed_ordinary (track head attempt : Nat) :
    (s.attemptFailed track head attempt).Ensures (Ordinary s) := by
  simp only [State.attemptFailed, Answer.ensures_ite, Answer.ensures_next]
  exact ⟨fun _ => State.startAttempt_ordinary _ _ _, fun _ => s.captureDone_ordinary _ _ _⟩

theorem State.seekStep_ordinary (track head : Nat) : (s.seekStep track head).Ensures (Ordinary s) := by
  simp only [State.seekStep, Answer.ensures_ite, Answer.ensures_next]
  refine ⟨fun _ => .uncalled rfl rfl rfl, fun _ => ?_⟩
  split
  · exact Answer.ensures_next.mpr (.uncalled rfl rfl rfl)
  · exact (State.startAttempt_ordinary _ _ _).of_push rfl

theorem State.endScan_ordinary (s : State) : Ordinary s s.endScan := by
  simp only [State.endScan]
  split
  · next track head rest frames =>
    have stored := State.captureDone_ordinary ((s.setDec s.dec.finish).pop rest) track head s.dec.finish.trk
    have popped : ∀ f ∈ rest, f ∈ s.frames := fun f below => by
      rw [show s.frames = _ from frames]
      exact .tail _ below
    exact { stored with frames := fun f h => (stored.frames f h).imp_left (popped f) }
  · exact .uncalled rfl rfl rfl

/-- The start of an operation. -/
theorem startOp_ordinary (o : Op) : (startOp o s).Ensures (Ordinary s) := by
  cases o with
  | openPort path flow reset => exact State.startOpenPort_ordinary _ _ _
  | closePort => exact State.startClosePort_ordinary
  | runCommand c p =>
    simp only [startOp, State.startRunCommand, Answer.ensures_ite, Answer.ensures_next, Answer.ensures_refused,
      implies_true, true_and]
    intros
    exact .uncalled rfl rfl rfl
  | enableWriting =>
    simp only [startOp, State.startEnableWriting, Answer.ensures_ite, Answer.ensures_next,
      Answer.ensures_refused, implies_true, true_and]
    exact fun _ => .called (f := .enableWrite) rfl rfl rfl rfl
  | rewind | checkWriteProtect | checkDensity | diagnostics => exact State.startCommand_ordinary _ _
  | selectTrack n => exact State.startSelectTrack_ordinary n
  | selectSurface h => exact State.startSelectSurface_ordinary h
  | enableReading on =>
    simp only [startOp, State.startEnableReading, Answer.ensures_ite]
    exact ⟨fun _ => State.startCommand_ordinary _ _, fun _ => State.startCommand_ordinary _ _⟩
  | checkDisk force =>
    simp only [startOp, State.startCheckDisk, Answer.ensures_ite, Answer.ensures_next,
      Answer.ensures_refused, implies_true, and_true]
    exact ⟨fun _ => State.startCommand_ordinary _ _, fun _ _ => .uncalled rfl rfl rfl⟩
  | readTrack => exact State.startReadTrack_ordinary
  | writeTrack precomp mfm nbits =>
    simp only [startOp, State.startWriteTrack, Answer.ensures_ite, Answer.ensures_refused, implies_true,
      true_and, State.guardWrite_ensures, Answer.ensures_next]
    exact fun _ => ⟨fun _ => .uncalled rfl rfl rfl, fun _ _ => .uncalled rfl rfl rfl⟩
  | loadCapture raw bitLength =>
    simp only [startOp, State.startLoadCapture, Answer.ensures_ite, Answer.ensures_refused, implies_true,
      true_and, Answer.ensures_next]
    exact fun few =>
      { place := .inl rfl, moves := EngineState.mayMove_refl _, unstreamed := id, isOpen := fun h => ⟨h, rfl⟩
        frames := fun _ => .inl, bits := fun _ => Nat.le_of_not_lt few, chunk := rfl }
  | decode isHD cylinder head expected => exact State.startDecode_ordinary _ _ _ _
  | readBit bs c =>
    simp only [startOp, State.startReadBit, Answer.ensures_ite, Answer.ensures_refused, implies_true,
      true_and]
    intro
    split
    · exact Answer.ensures_refused.mpr trivial
    · exact Answer.ensures_next.mpr (.uncalled rfl rfl rfl)
  | writeBit bs c x =>
    simp only [startOp, State.startWriteBit, Answer.ensures_ite, Answer.ensures_refused, implies_true,
      true_and, Answer.ensures_next]
    exact fun _ => .uncalled rfl rfl rfl
  | extract | crc16 => exact Answer.ensures_next.mpr (.uncalled rfl rfl rfl)
  | attach path flow reset =>
    simp only [startOp, State.startAttach, Answer.ensures_ite, Answer.ensures_refused,
      implies_true, true_and]
    intro _ closed t next
    have opened := State.startOpenPort_ordinary (s := s.createSession.push .attachOpen) path flow reset t next
    exact { opened.of_push rfl with
      moves := (not_not.mp closed).symm ▸ opened.moves
      unstreamed := fun h => nomatch opened.unstreamed h
      isOpen := fun h => absurd rfl (opened.isOpen h).1 }
  | detach =>
    simp only [startOp, State.startDetach, State.onDevice_ensures]
    intro _ t next
    have closing := State.startClosePort_ordinary (s := s.setAd { s.ad with attached := false, cache := [] }) t next
    exact { closing with }
  | seek track =>
    simp only [startOp, State.startSeek, State.onDevice_ensures, Answer.ensures_next]
    exact fun _ => .uncalled rfl rfl rfl
  | readByte head offset =>
    simp only [startOp, State.startReadByte, State.onDevice_ensures]
    intro
    split
    · exact Answer.ensures_next.mpr (.uncalled rfl rfl rfl)
    · exact (State.startAttempt_ordinary _ _ _).of_push rfl
  | setSector | writeByte | writeback | formatSupported | writeprot | diskFlags | sideFlags =>
    simp only [startOp, State.startNoOp, State.startFormatSupported, State.startWriteprot,
      State.startFlags, State.startSetSector, State.onDevice_ensures, Answer.ensures_next]
    exact fun _ => .uncalled rfl rfl rfl

end Sys2Proof.Machine
end

section
/-! SUPPORT. Every step keeps the session consistent and the stream in its bounds
(41_handshake.md section 1, 43_streaming_read.md section 2). -/

namespace Sys2Proof.Machine

variable {s t : State}

/-! ### The invariants after an ordinary step -/

theorem Frame.of_unbound {f : Frame} (h : f.bound = false) :
    (f ≠ .streamStart ∧ f ≠ .features) ∧ f ≠ .stalled := by
  refine ⟨⟨?_, ?_⟩, ?_⟩ <;> rintro rfl <;> cases h

theorem Phase.of_ordinary {p : Phase} (h : p.ordinary = true) :
    p.isStream = false ∧ p.justClosed = false ∧ (∀ k, p ≠ .hs k) ∧ (∀ k, p ≠ .stream k)
      ∧ ∀ n c, p ≠ .length n c := by
  refine ⟨?_, ?_, ?_, ?_, ?_⟩
  · cases p with
    | stream => cases h
    | _ => rfl
  · cases p with
    | shut | hs => cases h
    | _ => rfl
  all_goals
    intros
    rintro rfl
    cases h

/-- With no operation waiting for a stream start or the feature query. -/
theorem State.SessionInv.of_unbound
    (isOpen : t.st ≠ .closed ∨ t.phase = .hs .enter → t.phase.justClosed = false → t.tp.isOpen = true)
    (hs : ∀ k, t.phase = .hs k → t.st = k.engineState)
    (stream : ∀ k, t.phase = .stream k → t.st = k.engineState)
    (unbound : ∀ f ∈ t.frames, f ≠ .streamStart ∧ f ≠ .features) : t.SessionInv :=
  ⟨isOpen, hs, stream, fun f member => unbound f (List.mem_of_mem_tail member),
    fun first => absurd rfl (unbound _ (List.mem_of_mem_head? first)).1,
    fun first => absurd rfl (unbound _ (List.mem_of_mem_head? first)).2⟩

/-- Outside the stream. -/
theorem State.StreamInv.outside (bits : t.cap.bitLength ≤ 8 * t.cap.size)
    (length : ∀ n c, t.phase = .length n c → n ≤ 8 * t.cap.size) (st : t.st ≠ .streaming)
    (place : t.phase.isStream = false) (chunk : t.str.chunk.length ≤ Config.streamChunk)
    (unstalled : ∀ f ∈ t.frames, f ≠ .stalled) : t.StreamInv := by
  refine ⟨bits, length, fun h => absurd h st, fun h => ?_, fun xs h => ?_, chunk, fun bs h => ?_,
    fun f member => unstalled f (List.mem_of_mem_tail member),
    fun first => absurd rfl (unstalled _ (List.mem_of_mem_head? first))⟩
  · simp [st, place] at h
  · rw [h] at place; cases place
  · rw [h] at place; cases place

theorem Ordinary.session (h : Ordinary s t) (isOpen : s.st ≠ .closed → s.tp.isOpen = true)
    (unbound : ∀ f ∈ s.frames, f ≠ .streamStart ∧ f ≠ .features) :
    s.st.mayMove t.st = true ∧ t.SessionInv := by
  refine ⟨h.moves, .of_unbound (fun out _ => ?_) (fun k here => ?_) (fun k here => ?_) fun f member => ?_⟩
  · have out : t.st ≠ .closed := by
      refine out.elim id fun enter => ?_
      rcases h.place with place | ⟨place, -⟩ <;> rw [enter] at place <;> cases place
    obtain ⟨before, same⟩ := h.isOpen out
    exact same.trans (isOpen before)
  · rcases h.place with place | ⟨place, closed⟩ <;> rw [here] at place <;> cases place
    exact closed
  · rcases h.place with place | ⟨place, -⟩ <;> rw [here] at place <;> cases place
  · exact (h.frames f member).elim (unbound f) fun free => (Frame.of_unbound free).1

theorem Ordinary.stream (h : Ordinary s t) (bits : s.cap.bitLength ≤ 8 * s.cap.size)
    (st : s.st ≠ .streaming) (chunk : s.str.chunk.length ≤ Config.streamChunk)
    (unstalled : ∀ f ∈ s.frames, f ≠ .stalled) : t.StreamInv := by
  refine .outside (h.bits bits) (fun n c here => ?_) (fun h' => st (h.unstreamed h')) ?_ (h.chunk ▸ chunk)
    fun f member => (h.frames f member).elim (unstalled f) fun free => (Frame.of_unbound free).2
  · rcases h.place with place | ⟨place, -⟩ <;> rw [here] at place <;> cases place
  · rcases h.place with place | ⟨place, -⟩
    · exact (Phase.of_ordinary place).1
    · rw [place]; rfl

/-- An ordinary step keeps the invariants at a place where no bound operation waits. -/
theorem Ordinary.keeps (h : Ordinary s t) (place : s.phase.ordinary = true) (exchange : ¬ s.phase.inExchange)
    (recheck : ¬ s.phase.inRecheck) (mark : s.phase ≠ .mark [Cmd.abort])
    (issue : s.phase ≠ .issue [Cmd.abort]) : s.Keeps t := by
  obtain ⟨outside, unclosed, -⟩ := Phase.of_ordinary place
  exact ⟨fun inv => h.session (fun out => inv.isOpen out unclosed) (inv.unbound exchange),
    fun inv => h.stream inv.bits (inv.not_streaming outside mark issue) inv.chunk (inv.unstalled recheck)⟩

/-- A step inside an operation: the place changes, and no operation is called or returns. -/
structure Passing (s t : State) : Prop where
  before : s.phase.ordinary = true
  after : t.phase.ordinary = true
  control : t.control = s.control
  frames : t.frames = s.frames
  exchange : s.phase.inExchange → t.phase.inExchange
  recheck : s.phase.inRecheck → t.phase.inRecheck
  mark : s.phase = .mark [Cmd.abort] → t.phase = .issue [Cmd.abort]
  issue : s.st = .streaming → s.phase ≠ .issue [Cmd.abort]

theorem Passing.keeps (h : Passing s t) : s.Keeps t := by
  have st : t.st = s.st := congrArg Control.st h.control
  have isOpen : t.tp.isOpen = s.tp.isOpen := congrArg Control.isOpen h.control
  have bitLength : t.cap.bitLength = s.cap.bitLength := congrArg Control.bitLength h.control
  have size : t.cap.size = s.cap.size := congrArg Control.size h.control
  have str : t.str = s.str := congrArg Control.str h.control
  have inside : t.CursorInside ↔ s.CursorInside := by rw [State.CursorInside, State.CursorInside, str, size]
  obtain ⟨outside, unclosed, unhs, unstream, -⟩ := Phase.of_ordinary h.before
  obtain ⟨outside', -, unhs', unstream', unlength'⟩ := Phase.of_ordinary h.after
  constructor
  · rintro ⟨opens, -, -, tail, starts, queries⟩
    rw [← h.frames] at tail starts queries
    refine ⟨st ▸ EngineState.mayMove_refl _, fun out _ => ?_, fun k here => absurd here (unhs' k),
      fun k here => absurd here (unstream' k), tail, fun first => ?_, fun first => ?_⟩
    · rw [isOpen]
      exact opens (.inl (st ▸ out.resolve_right (unhs' _))) unclosed
    · exact ⟨st ▸ (starts first).1, h.exchange (starts first).2⟩
    · exact ⟨st ▸ (queries first).1, h.exchange (queries first).2⟩
  · rintro ⟨bits, -, places, bounds, -, chunk, -, tail, stalled⟩
    rw [← h.frames] at tail stalled
    refine ⟨by rwa [bitLength, size], fun n c here => absurd here (unlength' n c), fun streaming => ?_,
      fun streaming => ?_, fun xs here => absurd here (unstream' _), by rwa [str],
      fun bs here => absurd here (unstream' _), tail, fun first => ?_⟩
    · rcases places (st ▸ streaming) with here | here | here
      · rw [outside] at here; cases here
      · exact .inr (.inr (h.mark here))
      · exact absurd here (h.issue (st ▸ streaming))
    · obtain ⟨cursor, stalls⟩ := bounds (.inl (st ▸ streaming.resolve_right (by simp [outside'])))
      exact ⟨fun _ => inside.mpr (cursor fun k here => absurd here (unstream k)),
        fun _ => str ▸ stalls fun k here => absurd here (unstream k)⟩
    · exact ⟨h.recheck (stalled first).1, inside.mpr (stalled first).2⟩

/-! ### Returns -/

theorem State.moveAndReturn_ordinary (s : State) {moves : Bool} {st : EngineState} (c : Code)
    (may : moves = true → s.st.mayMove st = true ∧ s.st ≠ .closed ∧ st ≠ .streaming) :
    Ordinary s (s.moveAndReturn moves st c) := by
  simp only [State.moveAndReturn]
  split
  · next move =>
    obtain ⟨allowed, out, unstreamed⟩ := may move
    exact { place := .inl rfl, moves := allowed, unstreamed := fun h => absurd h unstreamed
            isOpen := fun _ => ⟨out, rfl⟩, frames := fun _ => .inl, bits := id, chunk := rfl }
  · exact .uncalled rfl rfl rfl

/-- A code comes back to a waiting operation that is not bound. -/
theorem resume_ordinary {f : Frame} (c : Code) (free : f.bound = false) :
    (resume f c s).Ensures (Ordinary s) := by
  cases f with
  | streamStart | features | stalled => cases free
  | rewind | abortPoll | closing | attachDensity | captureDecode | seekHead | serve =>
    exact Answer.ensures_next.mpr (.uncalled rfl rfl rfl)
  | enableOn | enableWrite | enableOff =>
    refine Answer.ensures_next.mpr (s.moveAndReturn_ordinary c fun move => ?_)
    cases h : s.st <;> simp_all <;> rfl
  | density | payload =>
    simp only [resume, Answer.ensures_next, State.afterDensity, State.afterWriteCommand]
    split <;> exact .uncalled rfl rfl rfl
  | attachOpen =>
    simp only [resume, Answer.ensures_next, State.afterAttachOpen]
    split
    · exact .called (f := .attachDensity) rfl rfl rfl rfl
    · exact .uncalled rfl rfl rfl
  | capture k track head attempt =>
    cases k with
    | calOut | calBack => exact (State.startSelectTrack_ordinary _).of_push rfl
    | select =>
      simp only [resume, State.afterCapture, Answer.ensures_ite]
      exact ⟨fun _ => (State.startSelectSurface_ordinary _).of_push rfl,
        fun _ => State.attemptFailed_ordinary _ _ _⟩
    | surface =>
      simp only [resume, State.afterCapture, Answer.ensures_ite]
      exact ⟨fun _ => State.startReadTrack_ordinary.of_push rfl, fun _ => State.attemptFailed_ordinary _ _ _⟩
    | read =>
      simp only [resume, State.afterCapture, Answer.ensures_ite]
      exact ⟨fun _ => (State.startDecode_ordinary _ _ _ _).of_push rfl,
        fun _ => State.attemptFailed_ordinary _ _ _⟩

/-- A returned code goes to the operation that waits for it, bound or not. -/
theorem State.handBack_keeps {c : Code} (hp : s.phase = .ret c) : (s.handBack c).Ensures s.Keeps := by
  have closes : s.phase.justClosed = false := by rw [hp]; rfl
  have outside : s.phase.isStream = false := by rw [hp]; rfl
  have unstreamed : s.StreamInv → s.st ≠ .streaming :=
    fun inv => inv.not_streaming outside (by simp [hp]) (by simp [hp])
  cases hf : s.frames with
  | nil =>
    simp only [State.handBack, hf, Answer.ensures_next]
    have back : Ordinary s (s.goto .idle) := .uncalled rfl rfl rfl
    exact ⟨fun inv => back.session (fun out => inv.isOpen out closes) (by simp [hf]),
      fun inv => back.stream inv.bits (unstreamed inv) inv.chunk (by simp [hf])⟩
  | cons f rest =>
    simp only [State.handBack, hf]
    have unbound : s.SessionInv → ∀ g ∈ rest, g ≠ .streamStart ∧ g ≠ .features := by
      rintro ⟨-, -, -, tail, -⟩
      rwa [hf] at tail
    have unstalled : s.StreamInv → ∀ g ∈ rest, g ≠ .stalled := by
      rintro ⟨-, -, -, -, -, -, -, tail, -⟩
      rwa [hf] at tail
    cases free : f.bound with
    | false =>
      intro t next
      have back := resume_ordinary c free t next
      exact ⟨fun inv => back.session (fun out => inv.isOpen out closes) (unbound inv),
        fun inv => back.stream inv.bits (unstreamed inv) inv.chunk (unstalled inv)⟩
    | true =>
      cases f <;> simp only [Frame.bound, Bool.false_eq_true] at free
      case features =>
        have there : s.SessionInv → s.st = .syncing := fun ⟨_, _, _, _, _, queries⟩ => (queries (by simp [hf])).1
        simp only [resume, Answer.ensures_next, State.afterFeatures]
        split
        all_goals
          refine ⟨fun inv => ⟨EngineState.mayMove_refl _, .of_unbound (fun _ _ => ?_) ?_ nofun (unbound inv)⟩,
            fun inv => .outside inv.bits nofun (unstreamed inv) rfl inv.chunk (unstalled inv)⟩
          · exact inv.isOpen (by simp [there inv]) closes
          · rintro k ⟨⟩
            exact there inv
      case streamStart =>
        have there : s.SessionInv → s.st = .readEnabled := fun ⟨_, _, _, _, starts, _⟩ => (starts (by simp [hf])).1
        have opens : s.SessionInv → s.tp.isOpen = true := fun inv => inv.isOpen (by simp [there inv]) closes
        simp only [resume, Answer.ensures_next, State.afterStreamStart]
        split
        · refine ⟨fun inv => ⟨EngineState.mayMove_refl _, .of_unbound (fun _ _ => opens inv) nofun ?_ (unbound inv)⟩,
            fun inv => ⟨inv.bits, nofun, fun _ => .inl rfl, fun _ => ⟨fun entered => ?_, fun counted => ?_⟩, nofun,
              inv.chunk, nofun, fun g below => unstalled inv g (List.mem_of_mem_tail below), fun first => ?_⟩⟩
          · rintro k ⟨⟩
            exact there inv
          · cases entered _ rfl
          · cases counted _ rfl
          · exact absurd rfl (unstalled inv _ (List.mem_of_mem_head? first))
        · refine ⟨fun inv => ⟨EngineState.mayMove_refl _, .of_unbound (fun _ _ => opens inv) ?_ ?_ (unbound inv)⟩,
            fun inv => .outside inv.bits ?_ (unstreamed inv) ?_ inv.chunk (unstalled inv)⟩
          all_goals simp only [State.goto_fields]; split
          · nofun
          · nofun
          · nofun
          · nofun
          · nofun
          · rintro n c ⟨⟩
            exact Nat.zero_le _
          · rfl
          · rfl
      case stalled =>
        refine Answer.ensures_next.mpr ⟨fun inv => ⟨EngineState.mayMove_refl _, .of_unbound
          (fun out here => inv.isOpen (out.resolve_right nofun) closes) nofun nofun (unbound inv)⟩, fun inv => ?_⟩
        obtain ⟨-, -, -, -, -, -, -, -, stalled⟩ := id inv
        obtain ⟨-, -, within⟩ := stalled (by simp [hf])
        exact .outside within nofun (unstreamed inv) rfl inv.chunk (unstalled inv)

end Sys2Proof.Machine
end

section
/-! SUPPORT. The handshake, the stream and the commands keep the session consistent and the stream in its
bounds; so does every step (41_handshake.md section 1, 43_streaming_read.md section 2). -/

namespace Sys2Proof.Machine

variable {s t : State}

/-! ### The handshake -/

theorem HsStep.engineState_cases (k : HsStep) : k.engineState = .closed ∨ k.engineState = .syncing := by
  cases k <;> first | exact .inl rfl | exact .inr rfl

/-- The step that follows the release of the Transport. -/
def HsStep.released : HsStep → Bool
  | .closed _ => true
  | _ => false

/-- A step from `k` of the handshake goes on in it or leaves it. -/
structure HsMove (k : HsStep) (s t : State) : Prop where
  place : (∃ k', t.phase = .hs k') ∨ t.phase.ordinary = true
  unstreamed : t.st = .streaming → s.st = .streaming
  frames : t.frames = s.frames
  cap : t.cap = s.cap
  str : t.str = s.str
  session : s.st = k.engineState → (s.st = .syncing ∨ k = .enter → k.released = false → s.tp.isOpen = true) →
    s.st.mayMove t.st = true ∧ (∀ k', t.phase = .hs k' → t.st = k'.engineState)
      ∧ (t.st ≠ .closed ∨ t.phase = .hs .enter → t.phase.justClosed = false → t.tp.isOpen = true)

theorem HsMove.keeps {k : HsStep} (h : HsMove k s t) (hp : s.phase = .hs k) : s.Keeps t := by
  have exchange : ¬ s.phase.inExchange := by simp [hp, Phase.inExchange]
  have recheck : ¬ s.phase.inRecheck := by simp [hp, Phase.inRecheck]
  have streamless : ∀ k', t.phase ≠ .stream k' := fun k' here => by
    rcases h.place with ⟨_, place⟩ | place <;> rw [here] at place <;> cases place
  constructor
  · intro inv
    have there : s.st = k.engineState := inv.2.1 k hp
    obtain ⟨moves, places, opened⟩ := h.session there fun opened unreleased =>
      inv.1 (opened.imp (fun syncing => by simp [syncing]) (fun enter => hp.trans (congrArg Phase.hs enter)))
        (by rw [hp]; cases k <;> first | rfl | cases unreleased)
    exact ⟨moves, .of_unbound opened places (fun k' here => absurd here (streamless k'))
      (h.frames ▸ inv.unbound exchange)⟩
  · intro inv
    have unstreamed : s.st ≠ .streaming :=
      inv.not_streaming (by rw [hp]; rfl) (by simp [hp]) (by simp [hp])
    refine .outside (h.cap ▸ inv.bits) (fun n c here => ?_) (fun e => unstreamed (h.unstreamed e)) ?_
      (h.str ▸ inv.chunk) (h.frames ▸ inv.unstalled recheck)
    · rcases h.place with ⟨_, place⟩ | place <;> rw [here] at place <;> cases place
    · cases place : t.phase with
      | stream k' => exact absurd place (streamless k')
      | _ => rfl

/-- The registers that a step of the handshake leaves. -/
def State.SameSession (s t : State) : Prop :=
  t.st = s.st ∧ t.frames = s.frames ∧ t.cap = s.cap ∧ t.str = s.str

/-- A step to another step of the same engine state. -/
theorem HsMove.stays {k k' : HsStep} (place : t.phase = .hs k') (still : k' ≠ .enter)
    (same : k'.engineState = k.engineState) (unreleased : k.released = false)
    (rest : s.SameSession t) (isOpen : t.tp.isOpen = s.tp.isOpen) : HsMove k s t := by
  obtain ⟨st, frames, cap, str⟩ := rest
  refine ⟨.inl ⟨k', place⟩, fun h => st ▸ h, frames, cap, str, fun there opens => ⟨?_, ?_, fun out _ => ?_⟩⟩
  · exact st ▸ EngineState.mayMove_refl _
  · rw [place]
    rintro _ ⟨⟩
    rw [st, there, same]
  · have out : s.st ≠ .closed := st ▸ out.resolve_right (by simpa [place] using still)
    rw [isOpen]
    exact opens (.inl ((k.engineState_cases.resolve_left (there ▸ out)) ▸ there)) unreleased

/-- A step out of the handshake that leaves the engine state. -/
theorem HsMove.leaves {k : HsStep} (place : t.phase.ordinary = true) (unreleased : k.released = false)
    (rest : s.SameSession t) (isOpen : t.tp.isOpen = s.tp.isOpen) : HsMove k s t := by
  obtain ⟨st, frames, cap, str⟩ := rest
  obtain ⟨-, -, outside, -⟩ := Phase.of_ordinary place
  refine ⟨.inr place, fun h => st ▸ h, frames, cap, str, fun there opens =>
    ⟨st ▸ EngineState.mayMove_refl _, fun k' here => absurd here (outside k'), fun out _ => ?_⟩⟩
  have out : s.st ≠ .closed := st ▸ out.resolve_right (outside _)
  rw [isOpen]
  exact opens (.inl ((k.engineState_cases.resolve_left (there ▸ out)) ▸ there)) unreleased

theorem State.hsFail_moves {k : HsStep} (e : Code) (syncing : k.engineState = .syncing)
    (unreleased : k.released = false) : HsMove k s (s.hsFail e) := by
  unfold State.hsFail
  split
  · exact .stays rfl nofun syncing.symm unreleased ⟨rfl, rfl, rfl, rfl⟩ rfl
  · exact .stays rfl nofun syncing.symm unreleased ⟨rfl, rfl, rfl, rfl⟩ rfl

/-- Every step of the handshake. -/
theorem hsStep_moves (k : HsStep) : (s.hsStep k).Ensures (HsMove k s) := by
  match k with
  | .open =>
    simp only [State.hsStep, Answer.ensures_next, State.hsOpen]
    split
    · exact .leaves rfl rfl ⟨rfl, rfl, rfl, rfl⟩ rfl
    · refine ⟨.inl ⟨_, rfl⟩, id, rfl, rfl, rfl, fun there _ => ⟨EngineState.mayMove_refl _, ?_, fun out => ?_⟩⟩
      · rintro k' ⟨⟩; exact there
      · exact absurd there (out.resolve_right nofun)
  | .configure =>
    simp only [State.hsStep, State.onChannel_ensures, State.hsConfigure]
    intro
    split
    · exact .stays rfl nofun rfl rfl ⟨rfl, rfl, rfl, rfl⟩ rfl
    · exact .stays rfl nofun rfl rfl ⟨rfl, rfl, rfl, rfl⟩ rfl
  | .drop =>
    simp only [State.hsStep, State.onChannel_ensures]
    refine fun _ => ⟨.inr rfl, id, rfl, rfl, rfl, fun there _ => ⟨EngineState.mayMove_refl _, nofun, fun out => ?_⟩⟩
    exact absurd there (out.resolve_right nofun)
  | .syncWr =>
    simp only [State.hsStep, State.onChannel_ensures]
    refine fun isOpen => ⟨.inl ⟨_, rfl⟩, id, rfl, rfl, rfl, fun there _ =>
      ⟨EngineState.mayMove_refl _, ?_, fun _ _ => isOpen⟩⟩
    rintro k' ⟨⟩; exact there
  | .enter =>
    simp only [State.hsStep, Answer.ensures_next]
    refine ⟨.inl ⟨_, rfl⟩, nofun, rfl, rfl, rfl, fun there opens =>
      ⟨by rw [there]; rfl, ?_, fun _ _ => opens (.inr rfl) rfl⟩⟩
    rintro k' ⟨⟩; rfl
  | .top =>
    simp only [State.hsStep, Answer.ensures_next, State.hsTop]
    split
    · exact State.hsFail_moves _ rfl rfl
    · exact .stays rfl nofun rfl rfl ⟨rfl, rfl, rfl, rfl⟩ rfl
  | .byte bs =>
    simp only [State.hsStep, Answer.ensures_next, State.hsPolled, State.hsEmptyPoll]
    split
    · split
      · split
        · exact .leaves rfl rfl ⟨rfl, rfl, rfl, rfl⟩ rfl
        · exact .stays rfl nofun rfl rfl ⟨rfl, rfl, rfl, rfl⟩ rfl
      · exact .stays rfl nofun rfl rfl ⟨rfl, rfl, rfl, rfl⟩ rfl
    · exact .stays rfl nofun rfl rfl ⟨rfl, rfl, rfl, rfl⟩ rfl
  | .look =>
    simp only [State.hsStep, Answer.ensures_next, State.hsNoMatch]
    split
    · exact State.hsFail_moves _ rfl rfl
    · exact .stays rfl nofun rfl rfl ⟨rfl, rfl, rfl, rfl⟩ rfl
  | .query =>
    simp only [State.hsStep, Answer.ensures_next, State.hsQuery]
    split
    · exact .leaves rfl rfl ⟨rfl, rfl, rfl, rfl⟩ rfl
    · exact .stays rfl nofun rfl rfl ⟨rfl, rfl, rfl, rfl⟩ rfl
  | .features fs =>
    simp only [State.hsStep, Answer.ensures_next, State.hsFeatures]
    split
    · exact .stays rfl nofun rfl rfl ⟨rfl, rfl, rfl, rfl⟩ rfl
    · exact .stays rfl nofun rfl rfl ⟨rfl, rfl, rfl, rfl⟩ rfl
  | .check =>
    simp only [State.hsStep, Answer.ensures_next, State.hsCheck]
    split
    · exact .stays rfl nofun rfl rfl ⟨rfl, rfl, rfl, rfl⟩ rfl
    · exact .stays rfl nofun rfl rfl ⟨rfl, rfl, rfl, rfl⟩ rfl
  | .ready =>
    simp only [State.hsStep, Answer.ensures_next]
    exact ⟨.inr rfl, nofun, rfl, rfl, rfl, fun there opens =>
      ⟨by rw [there]; rfl, nofun, fun _ _ => opens (.inl there) rfl⟩⟩
  | .close c =>
    simp only [State.hsStep, State.onChannel_ensures]
    refine fun _ => ⟨.inl ⟨_, rfl⟩, id, rfl, rfl, rfl, fun there _ => ⟨EngineState.mayMove_refl _, ?_, nofun⟩⟩
    rintro k' ⟨⟩; exact there
  | .closed c =>
    simp only [State.hsStep, Answer.ensures_next]
    exact ⟨.inr rfl, nofun, rfl, rfl, rfl, fun there _ => ⟨by rw [there]; rfl, nofun, nofun⟩⟩
  | .syncRd | .hello | .poll | .purge1 | .purge2 | .featBytes | .normalRd | .normalWr | .dtrLow | .rtsLow | .dtrHigh
  | .rtsHigh =>
    simp only [State.hsStep, State.onChannel_ensures]
    exact fun _ => .stays rfl nofun rfl rfl ⟨rfl, rfl, rfl, rfl⟩ rfl
  | .greet | .zeroWindow | .zeroSeen | .zeroEmpty | .clock | .shift _ | .kicked | .minor _ _ | .control _
  | .settle | .flags2 _ _ | .build _ | .settleLow | .settleHigh =>
    exact Answer.ensures_next.mpr (.stays rfl nofun rfl rfl ⟨rfl, rfl, rfl, rfl⟩ rfl)

/-! ### The stream -/

/-- A step of the streamed read that leaves the engine state keeps the session. -/
theorem State.SessionInv.streams {k : StreamStep} (inv : s.SessionInv) (hp : s.phase = .stream k)
    (place : t.phase.ordinary = true ∨ ∃ k', t.phase = .stream k' ∧ k'.engineState = k.engineState)
    (st : t.st = s.st) (isOpen : t.tp.isOpen = s.tp.isOpen)
    (frames : ∀ f ∈ t.frames, f ∈ s.frames ∨ f.bound = false) :
    s.st.mayMove t.st = true ∧ t.SessionInv := by
  have there : s.st = k.engineState := inv.2.2.1 k hp
  refine ⟨st ▸ EngineState.mayMove_refl _, .of_unbound (fun out _ => ?_) (fun k' here => ?_) (fun k' here => ?_)
    fun f member => (frames f member).elim (inv.unbound (by simp [hp, Phase.inExchange]) f)
      fun free => (Frame.of_unbound free).1⟩
  · have out : t.st ≠ .closed := by
      refine out.resolve_right fun enter => ?_
      rcases place with place | ⟨k', place, -⟩ <;> rw [enter] at place <;> cases place
    rw [isOpen]
    exact inv.isOpen (st ▸ out) (by rw [hp]; rfl)
  · rcases place with place | ⟨k', place, -⟩ <;> rw [here] at place <;> cases place
  · rcases place with place | ⟨k'', place, same⟩ <;> rw [here] at place <;> cases place
    rw [st, there, same]

/-- What the invariant says inside the stream. -/
theorem State.StreamInv.of_stream {k : StreamStep} (inv : s.StreamInv) (hp : s.phase = .stream k) :
    (k.entering = false → s.CursorInside) ∧ (k.counting = true → s.str.nStall < Config.stallPolls)
      ∧ ∀ f ∈ s.frames, f ≠ .stalled := by
  have unstalled := inv.unstalled (by simp [hp, Phase.inRecheck])
  obtain ⟨-, -, -, bounds, -⟩ := inv
  obtain ⟨cursor, stalls⟩ := bounds (.inr (by rw [hp]; rfl))
  refine ⟨fun h => cursor ?_, fun h => stalls ?_, unstalled⟩ <;> rw [hp] <;> rintro _ ⟨⟩ <;> exact h

/-- Inside the stream, or about to record the abort byte. -/
theorem State.StreamInv.inside (place : t.phase.isStream = true ∨ t.phase = .mark [Cmd.abort])
    (bits : t.cap.bitLength ≤ 8 * t.cap.size)
    (cursor : (∀ k, t.phase = .stream k → k.entering = false) → t.CursorInside)
    (stalls : (∀ k, t.phase = .stream k → k.counting = true) → t.str.nStall < Config.stallPolls)
    (room : ∀ xs, t.phase = .stream (.advance xs) → t.str.wcur.linear < 8 * t.cap.size)
    (chunk : t.str.chunk.length ≤ Config.streamChunk)
    (polled : ∀ bs, t.phase = .stream (.chunk bs) → bs.length ≤ Config.streamChunk)
    (unstalled : ∀ f ∈ t.frames, f ≠ .stalled) : t.StreamInv := by
  refine ⟨bits, fun n c here => ?_, fun _ => place.imp_right .inl, fun _ => ⟨cursor, stalls⟩, room, chunk, polled,
    fun f member => unstalled f (List.mem_of_mem_tail member),
    fun first => absurd rfl (unstalled _ (List.mem_of_mem_head? first))⟩
  rcases place with place | place <;> rw [here] at place <;> cases place

/-- A step of the stream that leaves the registers that the bounds are about. -/
theorem State.StreamInv.drifts {k k' : StreamStep} (inv : s.StreamInv) (hp : s.phase = .stream k)
    (place : t.phase = .stream k') (entered : k'.entering = false → k.entering = false)
    (counted : k'.counting = true → k.counting = true)
    (calm : (∀ xs, k' ≠ .advance xs) ∧ ∀ bs, k' ≠ .chunk bs)
    (cap : t.cap = s.cap) (wcur : t.str.wcur = s.str.wcur) (nStall : t.str.nStall = s.str.nStall)
    (chunk : t.str.chunk = s.str.chunk) (frames : ∀ f ∈ t.frames, f ∈ s.frames) : t.StreamInv := by
  obtain ⟨cursor, stalls, unstalled⟩ := inv.of_stream hp
  obtain ⟨unmoved, unpolled⟩ := calm
  refine .inside (.inl (by rw [place]; rfl)) (cap ▸ inv.bits) (fun h => ?_) (fun h => ?_)
    (fun xs here => ?_) (chunk ▸ inv.chunk) (fun bs here => ?_) fun f member => unstalled f (frames f member)
  · rw [State.CursorInside, wcur, cap]
    exact cursor (entered (h k' place))
  · rw [nStall]
    exact stalls (counted (h k' place))
  · rw [place] at here; cases here; exact absurd rfl (unmoved xs)
  · rw [place] at here; cases here; exact absurd rfl (unpolled bs)

/-- A drifting step that also leaves the session. -/
theorem StreamStep.drifts {k k' : StreamStep} (hp : s.phase = .stream k) (place : t.phase = .stream k')
    (entered : k'.entering = false → k.entering = false) (counted : k'.counting = true → k.counting = true)
    (calm : (∀ xs, k' ≠ .advance xs) ∧ ∀ bs, k' ≠ .chunk bs) (same : k'.engineState = k.engineState)
    (session : t.st = s.st ∧ t.tp.isOpen = s.tp.isOpen ∧ t.cap = s.cap)
    (str : t.str.wcur = s.str.wcur ∧ t.str.nStall = s.str.nStall ∧ t.str.chunk = s.str.chunk)
    (frames : ∀ f ∈ t.frames, f ∈ s.frames) : s.Keeps t := by
  obtain ⟨st, isOpen, cap⟩ := session
  obtain ⟨wcur, nStall, chunk⟩ := str
  exact ⟨fun inv => inv.streams hp (.inr ⟨k', place, same⟩) st isOpen fun f member => .inl (frames f member),
    fun inv => inv.drifts hp place entered counted calm cap wcur nStall chunk frames⟩

/-- About to record the abort byte, from a step of the loop. -/
theorem StreamStep.aborts {k : StreamStep} (hp : s.phase = .stream k) (place : t.phase = .mark [Cmd.abort])
    (looping : k.entering = false ∧ k.counting = true) (control : t.control = s.control)
    (frames : ∀ f ∈ t.frames, f ∈ s.frames ∨ f.bound = false) : s.Keeps t := by
  have st : t.st = s.st := congrArg Control.st control
  have isOpen : t.tp.isOpen = s.tp.isOpen := congrArg Control.isOpen control
  have bitLength : t.cap.bitLength = s.cap.bitLength := congrArg Control.bitLength control
  have size : t.cap.size = s.cap.size := congrArg Control.size control
  have str : t.str = s.str := congrArg Control.str control
  refine ⟨fun inv => inv.streams hp (.inl (by rw [place]; rfl)) st isOpen frames, fun inv => ?_⟩
  obtain ⟨cursor, stalls, unstalled⟩ := inv.of_stream hp
  refine .inside (.inr place) (by rw [bitLength, size]; exact inv.bits) (fun _ => ?_)
    (fun _ => str ▸ stalls looping.2) (by simp [place]) (str ▸ inv.chunk) (by simp [place])
    fun f member => (frames f member).elim (unstalled f) fun free => (Frame.of_unbound free).2
  rw [State.CursorInside, str, size]
  exact cursor looping.1

/-- The next capture bit of a byte: the abort byte, the rest of the chunk, or a bit written with room. -/
theorem State.nextSymbol_keeps {k : StreamStep} (hp : s.phase = .stream k)
    (looping : k.entering = false ∧ k.counting = true) (streaming : k.engineState = .streaming)
    (xs : List Bool) : s.Keeps (s.nextSymbol xs) := by
  rcases s.nextSymbol_cases xs with ⟨-, next⟩ | ⟨-, -, next⟩ | ⟨x, rest, unfull, -, next⟩ <;> rw [next]
  · exact StreamStep.aborts hp rfl looping rfl fun _ => .inl
  · exact StreamStep.drifts hp rfl (fun _ => looping.1) (fun _ => looping.2) ⟨nofun, nofun⟩ streaming.symm
      ⟨rfl, rfl, rfl⟩ ⟨rfl, rfl, rfl⟩ fun _ => id
  · refine ⟨fun inv => inv.streams hp (.inr ⟨_, rfl, streaming.symm⟩) rfl rfl fun _ => .inl, fun inv => ?_⟩
    obtain ⟨cursor, stalls, unstalled⟩ := inv.of_stream hp
    obtain ⟨bit, within⟩ := cursor looping.1
    exact .inside (.inl rfl) inv.bits (fun _ => ⟨bit, within⟩) (fun _ => stalls looping.2)
      (fun _ _ => Nat.lt_of_le_of_ne within unfull) inv.chunk nofun unstalled

/-- The end of a streamed read. -/
theorem State.streamFinished_keeps (hp : s.phase = .stream .echo) : s.Keeps s.streamFinished := by
  refine ⟨fun inv => inv.streams hp (.inr ⟨_, rfl, rfl⟩) rfl rfl fun _ => .inl, fun inv => ?_⟩
  obtain ⟨cursor, -, unstalled⟩ := inv.of_stream hp
  obtain ⟨bit, within⟩ := cursor rfl
  exact .inside (.inl rfl) within (fun _ => ⟨bit, within⟩) (fun counted => nomatch counted _ rfl) nofun inv.chunk
    nofun unstalled

/-- Every step of the streamed read. -/
theorem streamStep_keeps {k : StreamStep} (hp : s.phase = .stream k) :
    (s.streamStep k).Ensures s.Keeps := by
  cases k with
  | enter =>
    refine Answer.ensures_next.mpr ⟨fun inv => ?_, fun inv => inv.drifts hp rfl nofun nofun ⟨nofun, nofun⟩
      rfl rfl rfl rfl fun _ => id⟩
    have there : s.st = .readEnabled := inv.2.2.1 _ hp
    refine ⟨by rw [there]; rfl, .of_unbound (fun _ _ => ?_) nofun ?_ (inv.unbound (by simp [hp, Phase.inExchange]))⟩
    · exact inv.isOpen (by simp [there]) (by rw [hp]; rfl)
    · rintro k ⟨⟩; rfl
  | initWindow | initSent | initUser =>
    exact Answer.ensures_next.mpr (StreamStep.drifts hp rfl nofun (fun h => h) ⟨nofun, nofun⟩ rfl ⟨rfl, rfl, rfl⟩
      ⟨rfl, rfl, rfl⟩ fun _ => id)
  | initStall =>
    refine Answer.ensures_next.mpr ⟨fun inv => inv.streams hp (.inr ⟨_, rfl, rfl⟩) rfl rfl fun _ => .inl,
      fun inv => ?_⟩
    obtain ⟨-, -, unstalled⟩ := inv.of_stream hp
    exact .inside (.inl rfl) inv.bits (fun entered => nomatch entered _ rfl) (fun _ => (by decide : 0 < Config.stallPolls)) nofun
      inv.chunk nofun unstalled
  | initCursor =>
    refine Answer.ensures_next.mpr ⟨fun inv => inv.streams hp (.inr ⟨_, rfl, rfl⟩) rfl rfl fun _ => .inl,
      fun inv => ?_⟩
    obtain ⟨-, stalls, unstalled⟩ := inv.of_stream hp
    exact .inside (.inl rfl) inv.bits (fun _ => ⟨(by decide : 0 < 8), Nat.zero_le _⟩) (fun _ => stalls rfl) nofun
      inv.chunk nofun unstalled
  | top =>
    simp only [State.streamStep, Answer.ensures_next, State.streamTop]
    split
    · refine StreamStep.aborts hp rfl ⟨rfl, rfl⟩ rfl fun f member => ?_
      exact (List.mem_cons.mp member).elim (fun e => .inr (e ▸ rfl)) .inl
    · exact StreamStep.drifts hp rfl (fun _ => rfl) (fun _ => rfl) ⟨nofun, nofun⟩ rfl ⟨rfl, rfl, rfl⟩
        ⟨rfl, rfl, rfl⟩ fun _ => id
  | poll =>
    simp only [State.streamStep, State.streamPoll, State.onChannel_ensures]
    refine fun _ => ⟨fun inv => inv.streams hp (.inr ⟨_, rfl, rfl⟩) rfl rfl fun _ => .inl, fun inv => ?_⟩
    obtain ⟨cursor, stalls, unstalled⟩ := inv.of_stream hp
    refine .inside (.inl rfl) inv.bits (fun _ => cursor rfl) (fun _ => stalls rfl) nofun inv.chunk ?_ unstalled
    rintro bs ⟨⟩
    obtain ⟨length, few, -⟩ := s.received_length Config.streamChunk
    exact length ▸ few
  | chunk bs =>
    refine Answer.ensures_next.mpr ⟨fun inv => inv.streams hp (.inr ⟨_, rfl, rfl⟩) rfl rfl fun _ => .inl,
      fun inv => ?_⟩
    obtain ⟨cursor, stalls, unstalled⟩ := inv.of_stream hp
    obtain ⟨-, -, -, -, -, -, polled, -⟩ := id inv
    exact .inside (.inl rfl) inv.bits (fun _ => cursor rfl) (fun _ => stalls rfl) nofun (polled bs hp) nofun
      unstalled
  | got =>
    simp only [State.streamStep, Answer.ensures_next, State.streamGot]
    split
    · refine ⟨fun inv => inv.streams hp (.inr ⟨_, rfl, ?_⟩) rfl rfl fun _ => .inl, fun inv => ?_⟩
      · split <;> rfl
      · obtain ⟨cursor, -, unstalled⟩ := inv.of_stream hp
        refine .inside (.inl rfl) inv.bits (fun _ => cursor rfl) (fun counted => ?_) ?_ inv.chunk ?_ unstalled
        · by_contra limit
          have stalled := counted .stalled (by
            simp only [State.streamEmpty, State.gotoStream, State.goto_fields]
            rw [if_pos (show Config.stallPolls ≤ s.str.nStall + 1 from Nat.le_of_not_lt limit)])
          cases stalled
        all_goals
          simp only [State.streamEmpty, State.gotoStream, State.goto_fields]
          split <;> nofun
    · refine ⟨fun inv => inv.streams hp (.inr ⟨_, rfl, rfl⟩) rfl rfl fun _ => .inl, fun inv => ?_⟩
      obtain ⟨cursor, -, unstalled⟩ := inv.of_stream hp
      exact .inside (.inl rfl) inv.bits (fun _ => cursor rfl) (fun _ => (by decide : 0 < Config.stallPolls)) nofun
        inv.chunk nofun unstalled
  | bytes =>
    simp only [State.streamStep, Answer.ensures_next, State.streamBytes]
    split
    · exact StreamStep.drifts hp rfl (fun _ => rfl) (fun _ => rfl) ⟨nofun, nofun⟩ rfl ⟨rfl, rfl, rfl⟩
        ⟨rfl, rfl, rfl⟩ fun _ => id
    · next b rest chunk =>
      refine ⟨fun inv => inv.streams hp (.inr ⟨_, rfl, rfl⟩) rfl rfl fun _ => .inl, fun inv => ?_⟩
      obtain ⟨cursor, stalls, unstalled⟩ := inv.of_stream hp
      have few := inv.chunk
      rw [chunk, List.length_cons] at few
      exact .inside (.inl rfl) inv.bits (fun _ => cursor rfl) (fun _ => stalls rfl) nofun (Nat.le_of_succ_le few)
        nofun unstalled
  | symbols xs => exact Answer.ensures_next.mpr (State.nextSymbol_keeps hp ⟨rfl, rfl⟩ rfl xs)
  | advance xs =>
    refine Answer.ensures_next.mpr ⟨fun inv => inv.streams hp (.inr ⟨_, rfl, rfl⟩) rfl rfl fun _ => .inl,
      fun inv => ?_⟩
    obtain ⟨cursor, stalls, unstalled⟩ := inv.of_stream hp
    obtain ⟨bit, -⟩ := cursor rfl
    obtain ⟨-, -, -, -, room, -⟩ := id inv
    obtain ⟨moved, bit'⟩ := Cursor.written_spec bit (room xs hp)
    exact .inside (.inl rfl) inv.bits (fun _ => ⟨bit', moved ▸ room xs hp⟩) (fun _ => stalls rfl) nofun inv.chunk
      nofun unstalled
  | aborted =>
    rw [State.streamStep, Answer.ensures_next]
    obtain ⟨rest, frames, next⟩ | ⟨-, next⟩ := s.streamAborted_cases <;> rw [next]
    · refine StreamStep.drifts hp rfl (fun _ => rfl) (fun _ => rfl) ⟨nofun, nofun⟩ rfl ⟨rfl, rfl, rfl⟩
        ⟨rfl, rfl, rfl⟩ fun f below => ?_
      rw [frames]
      exact .tail _ below
    · exact StreamStep.drifts hp rfl (fun _ => rfl) (fun _ => rfl) ⟨nofun, nofun⟩ rfl ⟨rfl, rfl, rfl⟩
        ⟨rfl, rfl, rfl⟩ fun _ => id
  | byte | echo | user | leaveFlag | stalled =>
    exact Answer.ensures_next.mpr (StreamStep.drifts hp rfl (fun _ => rfl) (fun h => h) ⟨nofun, nofun⟩ rfl
      ⟨rfl, rfl, rfl⟩ ⟨rfl, rfl, rfl⟩ fun _ => id)
  | leaveState =>
    refine Answer.ensures_next.mpr ⟨fun inv => ?_, fun inv => ?_⟩
    · have there : s.st = .streaming := inv.2.2.1 _ hp
      exact ⟨by rw [there]; rfl, .of_unbound
        (fun _ _ => inv.isOpen (by simp [there]) (by rw [hp]; rfl)) nofun nofun
        (inv.unbound (by simp [hp, Phase.inExchange]))⟩
    · obtain ⟨-, -, unstalled⟩ := inv.of_stream hp
      exact .outside inv.bits nofun nofun rfl inv.chunk unstalled
  | stalledState =>
    refine Answer.ensures_next.mpr ⟨fun inv => ?_, fun inv => ?_⟩
    · have there : s.st = .streaming := inv.2.2.1 _ hp
      refine ⟨by rw [there]; rfl, .of_unbound
        (fun _ _ => inv.isOpen (by simp [there]) (by rw [hp]; rfl)) nofun nofun fun f member => ?_⟩
      exact (List.mem_cons.mp member).elim (fun e => by rw [e]; exact ⟨nofun, nofun⟩)
        (inv.unbound (by simp [hp, Phase.inExchange]) f)
    · obtain ⟨cursor, -, unstalled⟩ := inv.of_stream hp
      exact ⟨inv.bits, nofun, nofun, nofun, nofun, inv.chunk, nofun, unstalled,
        fun _ => ⟨.inl rfl, cursor rfl⟩⟩

/-! ### The environment's part -/

/-- A returned code is handed back. -/
theorem step_ret_handBack {c : Code} (hp : s.phase = .ret c) : step s = s.tick.handBack c :=
  step_eq_of_moved (by simp [State.fetch, hp])

/-- The environment leaves the control. -/
theorem State.tick_control (s : State) : s.tick.control = s.control := by
  simp [State.control]

/-- The environment's part of a step is about no clause of the invariants. -/
theorem State.Keeps.of_tick (h : s.tick.Keeps t) : s.Keeps t := by
  have isOpen : s.tick.tp.isOpen = s.tp.isOpen := congrArg Control.isOpen s.tick_control
  refine ⟨fun inv => h.1 ?_, h.2⟩
  obtain ⟨opens, rest⟩ := inv
  exact ⟨isOpen ▸ opens, rest⟩

theorem Answer.Ensures.of_tick {a : Answer} (h : a.Ensures s.tick.Keeps) : a.Ensures s.Keeps :=
  fun t next => (h t next).of_tick

/-! ### Commands -/

theorem State.streaming_of_allows {i : Instr} (h : s.allows i = true) (other : i ≠ .abort) :
    s.st ≠ .streaming := by
  intro streaming
  cases i <;> simp [State.allows, streaming, EngineState.commands] at h other

theorem waitingFor_cases (i : Instr) : waitingFor i = [] ∨ ∃ f, waitingFor i = [f] ∧ f ≠ .stalled
    ∧ (f = .streamStart → i = .readStream) ∧ (f = .features → i = .features) := by
  unfold waitingFor
  split <;> simp

/-- After the write of a command: its response is awaited, or its failure about to be returned. -/
theorem State.sendInstr_fields (s : State) (i : Instr) :
    (s.sendInstr i).frames = waitingFor i ++ s.frames ∧ (s.sendInstr i).control = s.control
      ∧ ((s.sendInstr i).phase = afterWrite i ∨ (s.sendInstr i).phase = .exit .sendFailed) := by
  unfold State.sendInstr
  obtain ⟨-, next⟩ | ⟨-, next⟩ := State.send_cases { s with frames := waitingFor i ++ s.frames }
    (encode s.par.sync i) .sendFailed (afterWrite i) <;> rw [next]
  · exact ⟨rfl, rfl, .inl rfl⟩
  · exact ⟨rfl, rfl, .inr rfl⟩

theorem afterWrite_ordinary (i : Instr) : (afterWrite i).ordinary = true := by
  unfold afterWrite
  split <;> rfl

/-- Of the commands only check disk has its byte. -/
theorem State.checkDisk_of_encode {i : Instr} {sync : SyncWords} (h : s.allows i = true)
    (byte : encode sync i = [Cmd.checkDisk]) : i = .checkDisk := by
  cases i with
  | checkDisk => rfl
  | gotoTrack n => simp [encode, encodeTrack] at byte
  | version | rewind | head0 | head1 | readTrack | readStream | enable | disable | writeTrack | writePrecomp
  | diagnostics | density | checkWp | features | abort => exact nomatch byte
  | _ => cases h

/-- The write of a command keeps the invariants: a stream start and the feature query are called in their
engine states, and the check after a stall calls nothing. -/
theorem State.sendInstr_keeps {i : Instr} {w : List Byte} (hp : s.phase = .issue w)
    (bytes : w = encode s.par.sync i) (ho : s.tp.isOpen = true) (writes : s.writes i = true) :
    s.Keeps (s.sendInstr i) := by
  have allowed : s.allows i = true := (Bool.and_eq_true_iff.mp writes).1
  have uncalled : i ≠ .abort := by rintro rfl; simp [State.writes] at writes
  have exchange : ¬ s.phase.inExchange := by simp [hp, Phase.inExchange]
  obtain ⟨frames, control, place⟩ := s.sendInstr_fields i
  have st : (s.sendInstr i).st = s.st := congrArg Control.st control
  have bitLength : (s.sendInstr i).cap.bitLength = s.cap.bitLength := congrArg Control.bitLength control
  have size : (s.sendInstr i).cap.size = s.cap.size := congrArg Control.size control
  have str : (s.sendInstr i).str = s.str := congrArg Control.str control
  have ordinary : (s.sendInstr i).phase.ordinary = true := by
    rcases place with place | place <;> rw [place]
    · exact afterWrite_ordinary i
    · rfl
  obtain ⟨outside, -, unhs, unstream, unlength⟩ := Phase.of_ordinary ordinary
  constructor
  · intro inv
    have unbound := inv.unbound exchange
    refine ⟨st ▸ EngineState.mayMove_refl _, fun _ _ => (congrArg Control.isOpen control).trans ho,
      fun k here => absurd here (unhs k), fun k here => absurd here (unstream k), ?_⟩
    rw [frames, st]
    rcases waitingFor_cases i with none | ⟨f, one, -, starts, queries⟩
    · rw [none]
      exact ⟨fun f member => unbound f (List.mem_of_mem_tail member),
        fun first => absurd rfl (unbound _ (List.mem_of_mem_head? first)).1,
        fun first => absurd rfl (unbound _ (List.mem_of_mem_head? first)).2⟩
    · rw [one]
      refine ⟨unbound, fun first => ?_, fun first => ?_⟩ <;> simp only [List.cons_append, List.nil_append,
        List.head?_cons, Option.some.injEq] at first
      · obtain rfl := starts first
        exact ⟨by simpa [State.allows] using allowed, place.imp id fun h => .inr ⟨_, .inl h⟩⟩
      · obtain rfl := queries first
        exact ⟨by simpa [State.allows] using allowed, place.imp id fun h => .inr ⟨_, .inl h⟩⟩
  · by_cases check : i = .checkDisk
    · subst check
      refine Passing.keeps ⟨by rw [hp]; rfl, ordinary, control, frames, fun h => absurd h exchange, fun _ => ?_, by simp [hp],
        fun h => absurd h (State.streaming_of_allows allowed uncalled)⟩ |>.2
      rcases place with place | place <;> rw [place]
      · exact .inr (.inr (.inr (.inl rfl)))
      · simp [Phase.inRecheck]
    · intro inv
      have recheck : ¬ s.phase.inRecheck := by
        suffices w ≠ [Cmd.checkDisk] by simpa [hp, Phase.inRecheck] using this
        exact fun h => check (s.checkDisk_of_encode allowed (bytes ▸ h))
      refine .outside ?_ (fun n c here => absurd here (unlength n c))
        (fun h => State.streaming_of_allows allowed uncalled (st ▸ h)) outside ?_ fun f member => ?_
      · rw [bitLength, size]; exact inv.bits
      · rw [str]; exact inv.chunk
      · rw [frames] at member
        rcases List.mem_append.mp member with called | below
        · rcases waitingFor_cases i with none | ⟨g, one, unstalled, -⟩
          · simp [none] at called
          · rw [one, List.mem_singleton] at called
            exact called ▸ unstalled
        · exact inv.unstalled recheck f below

/-- The kick goes back to the sync loop. -/
theorem State.kick_keeps (hp : s.phase = .issue [Cmd.version]) (ho : s.tp.isOpen = true)
    (st : s.st = .syncing) : s.Keeps ((s.wrote [Cmd.version]).gotoHs .kicked) := by
  refine ⟨fun inv => ⟨EngineState.mayMove_refl _, .of_unbound (fun _ _ => ho) ?_ nofun
      (inv.unbound (by simp [hp, Phase.inExchange]))⟩,
    fun inv => .outside inv.bits nofun (fun h => ?_) rfl inv.chunk (inv.unstalled ?_)⟩
  · rintro k ⟨⟩; exact st
  · exact absurd (st.symm.trans h) (by decide)
  · simp [hp, Phase.inRecheck, Cmd.version, Cmd.checkDisk]

/-- The abort byte goes back to the streamed read. -/
theorem State.abort_keeps (hp : s.phase = .issue [Cmd.abort]) (ho : s.tp.isOpen = true)
    (st : s.st = .streaming) : s.Keeps ((s.wrote [Cmd.abort]).goto (.stream .aborted)) := by
  refine ⟨fun inv => ⟨EngineState.mayMove_refl _, .of_unbound (fun _ _ => ho) nofun ?_
      (inv.unbound (by simp [hp, Phase.inExchange]))⟩, fun inv => ?_⟩
  · rintro k ⟨⟩; exact st
  · have unstalled := inv.unstalled (by simp [hp, Phase.inRecheck, Cmd.abort, Cmd.checkDisk])
    have bits := inv.bits
    have chunk := inv.chunk
    obtain ⟨-, -, -, bounds, -⟩ := inv
    obtain ⟨cursor, stalls⟩ := bounds (.inl st)
    exact .inside (.inl rfl) bits (fun _ => cursor (by simp [hp])) (fun _ => stalls (by simp [hp])) nofun chunk nofun
      unstalled

/-- A step inside an operation that is none of the commands. -/
theorem Passing.of_place (before : s.phase.ordinary = true) (after : t.phase.ordinary = true)
    (control : t.control = s.control) (frames : t.frames = s.frames)
    (exchange : s.phase.inExchange → t.phase.inExchange) (recheck : s.phase.inRecheck → t.phase.inRecheck)
    (uncommanded : ∀ w, s.phase ≠ .mark w ∧ s.phase ≠ .issue w) : s.Keeps t :=
  Passing.keeps ⟨before, after, control, frames, exchange, recheck, fun h => absurd h (uncommanded _).1,
    fun _ => (uncommanded _).2⟩

/-- To the exit from an exchange or from a check. -/
theorem Passing.exits {c : Code} (before : s.phase.ordinary = true) (after : t.phase = .exit c ∨ t.phase = .ret c)
    (control : t.control = s.control) (frames : t.frames = s.frames)
    (uncommanded : ∀ w, s.phase ≠ .mark w ∧ s.phase ≠ .issue w) : s.Keeps t :=
  Passing.of_place before (by rcases after with h | h <;> rw [h] <;> rfl) control frames
    (fun _ => .inr (.inr ⟨c, after⟩))
    (fun _ => .inr (.inr (.inr (.inr (.inr (.inr (.inr (.inr ⟨c, after⟩)))))))) uncommanded

theorem State.send_place (s : State) (bs : List Byte) (e : Code) (p : Phase) :
    (s.send bs e p).control = s.control ∧ (s.send bs e p).frames = s.frames
      ∧ ((s.send bs e p).phase = p ∨ (s.send bs e p).phase = .exit e) := by
  obtain ⟨-, next⟩ | ⟨-, next⟩ := s.send_cases bs e p <;> rw [next]
  · exact ⟨rfl, rfl, .inl rfl⟩
  · exact ⟨rfl, rfl, .inr rfl⟩

/-- The places of an operation that no bound operation has called. -/
def Phase.calm : Phase → Bool
  | .idle | .pauseRaw _ _ | .markRaw _ _ | .raw _ _ | .param _ | .block | .framing _ | .framed | .payload _
  | .scan | .seek _ _ => true
  | _ => false

theorem Phase.of_calm {p : Phase} (h : p.calm = true) :
    p.ordinary = true ∧ ¬ p.inExchange ∧ ¬ p.inRecheck ∧ ∀ w, p ≠ .mark w ∧ p ≠ .issue w := by
  refine ⟨?_, ?_, ?_, fun w => ⟨?_, ?_⟩⟩
  · cases p <;> first | rfl | cases h
  · rintro (rfl | ⟨_, rfl⟩ | ⟨_, rfl | rfl⟩) <;> cases h
  · rintro (rfl | rfl | rfl | rfl | ⟨_, rfl⟩ | ⟨_, rfl⟩ | ⟨_, _, rfl⟩ | ⟨_, _, rfl⟩ | ⟨_, rfl | rfl⟩) <;> cases h
  all_goals rintro rfl; cases h

theorem Ordinary.keeps_of_calm (h : Ordinary s t) (calm : s.phase.calm = true) : s.Keeps t := by
  obtain ⟨ordinary, exchange, recheck, uncommanded⟩ := Phase.of_calm calm
  exact h.keeps ordinary exchange recheck (uncommanded _).1 (uncommanded _).2

/-- A write of a command byte given by a call. -/
theorem State.send_keeps (calm : s.phase.calm = true) (bs : List Byte) (e : Code) {p : Phase}
    (place : p.ordinary = true) : s.Keeps (s.send bs e p) := by
  obtain ⟨control, frames, after⟩ := s.send_place bs e p
  refine (Ordinary.uncalled ?_ control frames).keeps_of_calm calm
  rcases after with after | after <;> rw [after]
  · exact place
  · rfl

/-- The non-HD read writes bits as far as they fit. -/
theorem State.blockFramed_keeps (hp : s.phase = .framed) : s.Keeps s.blockFramed := by
  unfold State.blockFramed
  cases Config.blockVerdict s.blk.got s.blk.empty with
  | more => exact Ordinary.keeps_of_calm (.uncalled rfl rfl rfl) (by rw [hp]; rfl)
  | done e bits =>
    have unstreamed : s.StreamInv → s.st ≠ .streaming := fun inv =>
      inv.not_streaming (by rw [hp]; rfl) (by simp [hp]) (by simp [hp])
    refine ⟨fun inv => ⟨EngineState.mayMove_refl _, .of_unbound (fun out _ => inv.isOpen (out.resolve_right nofun)
      (by rw [hp]; rfl)) nofun nofun (inv.unbound (by simp [hp, Phase.inExchange]))⟩,
      fun inv => .outside inv.bits ?_ (unstreamed inv) rfl inv.chunk
        (inv.unstalled (by simp [hp, Phase.inRecheck]))⟩
    rintro n c ⟨⟩
    exact (fillBits_bounds bits (by decide : (0 : Nat) < 8) (Nat.zero_le _)).2

/-- `bitLength` is set to what was about to be set. -/
theorem State.setLength_keeps {n : Nat} {c : Code} (hp : s.phase = .length n c) :
    s.Keeps (s.setLength n c) := by
  refine ⟨fun inv => ⟨EngineState.mayMove_refl _, .of_unbound (fun out _ => inv.isOpen (out.resolve_right nofun)
      (by rw [hp]; rfl)) nofun nofun (inv.unbound (by simp [hp, Phase.inExchange]))⟩, fun inv => ?_⟩
  exact .outside (inv.2.1 n c hp) nofun (inv.not_streaming (by rw [hp]; rfl) (by simp [hp]) (by simp [hp])) rfl
    inv.chunk (inv.unstalled (by simp [hp, Phase.inRecheck]))

/-- The release of the Transport. -/
theorem State.finishClose_keeps (hp : s.phase = .closing) : s.Keeps (s.closeSession.goto .shut) := by
  refine ⟨fun inv => ⟨EngineState.mayMove_refl _, .of_unbound nofun nofun nofun
    (inv.unbound (by simp [hp, Phase.inExchange]))⟩, fun inv => ?_⟩
  exact .outside inv.bits nofun (inv.not_streaming (by rw [hp]; rfl) (by simp [hp]) (by simp [hp])) rfl
    inv.chunk (inv.unstalled (by simp [hp, Phase.inRecheck]))

theorem EngineState.mayMove_closed (a : EngineState) : a.mayMove .closed = true := by
  cases a <;> rfl

/-- After the release `st` follows. -/
theorem State.shut_keeps (hp : s.phase = .shut) : s.Keeps s.shut := by
  refine ⟨fun inv => ⟨s.st.mayMove_closed, .of_unbound nofun nofun nofun
    (inv.unbound (by simp [hp, Phase.inExchange]))⟩, fun inv => ?_⟩
  exact .outside inv.bits nofun nofun rfl inv.chunk (inv.unstalled (by simp [hp, Phase.inRecheck]))

/-- The settling of check disk, inside the check. -/
theorem State.finishCheckDisk_keeps {f : Presence} {bs : List Byte} (hp : s.phase = .judge (.diskProtect f) bs)
    (x : Bool) : s.Keeps (s.finishCheckDisk f x) := by
  obtain ⟨-, next⟩ | ⟨present, c, -, -, next⟩ := s.finishCheckDisk_cases f x <;> rw [next]
  · exact Passing.exits (by rw [hp]; rfl) (.inr rfl) rfl rfl (by simp [hp])
  · exact Passing.of_place (by rw [hp]; rfl) rfl rfl rfl (by simp [hp, Phase.inExchange]) (by simp [Phase.inRecheck])
      (by simp [hp])

/-- A response byte has been read for the exchange that awaits it. -/
theorem State.await_keeps {a : Await} (hp : s.phase = .await a) : s.Keeps (s.readTo 1 (.judge a)) := by
  refine Passing.of_place (by rw [hp]; rfl) rfl rfl rfl ?_ ?_ (by simp [hp])
  · cases a with
    | rsp1 => exact fun _ => .inr (.inl ⟨_, rfl⟩)
    | _ => simp [hp, Phase.inExchange]
  · cases a with
    | diskPresence | diskProtect => simp [Phase.inRecheck, State.readTo]
    | _ => simp [hp, Phase.inRecheck]

/-- A test before the write returns its code. -/
theorem State.returned_keeps {w : List Byte} {c : Code} (hp : s.phase = .issue w) (other : s.st ≠ .streaming) :
    s.Keeps (s.ret c) :=
  Passing.keeps ⟨by rw [hp]; rfl, rfl, rfl, rfl, fun _ => .inr (.inr ⟨c, .inr rfl⟩),
    fun _ => .inr (.inr (.inr (.inr (.inr (.inr (.inr (.inr ⟨c, .inr rfl⟩))))))), by simp [hp],
    fun h => absurd h other⟩

/-- Every step keeps the invariants, and moves the engine state as the table allows. -/
theorem step_keeps (s : State) : Answer.Ensures (step s) s.Keeps := by
  apply Answer.Ensures.of_tick
  have ho : s.tick.tp.isOpen = s.tp.isOpen := congrArg Control.isOpen s.tick_control
  have place : s.tick.phase = s.phase := rfl
  cases hp : s.phase with
  | idle =>
    cases hops : s.ops with
    | nil =>
      rw [step_unasked hp hops, Answer.ensures_next]
      exact Ordinary.keeps_of_calm (.uncalled (by rw [place, hp]; rfl) rfl rfl) (by rw [place, hp]; rfl)
    | cons o rest =>
      rw [step_start hp hops]
      intro t next
      have started := startOp_ordinary o t next
      exact Ordinary.keeps_of_calm { started with } (by rw [place, hp]; rfl)
  | pause w =>
    rw [step_pause hp, Answer.ensures_next]
    exact Passing.keeps ⟨by rw [place, hp]; rfl, rfl, rfl, rfl, by simp [hp, Phase.inExchange],
      by simp [hp, Phase.inRecheck], by simp [hp], by simp [hp]⟩
  | mark w =>
    rw [step_mark hp, Answer.ensures_next]
    exact Passing.keeps ⟨by rw [place, hp]; rfl, rfl, rfl, rfl, by simp [hp, Phase.inExchange],
      by simp [hp, Phase.inRecheck], by simp [hp], by simp [hp]⟩
  | issue w =>
    exact step_issue_ensures hp (fun i bytes isOpen writes => State.sendInstr_keeps hp bytes (ho ▸ isOpen) writes)
      (fun bytes isOpen st => State.kick_keeps (bytes ▸ hp) (ho ▸ isOpen) st)
      (fun bytes isOpen st => State.abort_keeps (bytes ▸ hp) (ho ▸ isOpen) st)
      fun c i _ _ allowed other => State.returned_keeps hp (State.streaming_of_allows allowed other)
  | pauseRaw c p =>
    rw [step_pauseRaw hp, Answer.ensures_next]
    exact Ordinary.keeps_of_calm (.uncalled rfl rfl rfl) (by rw [place, hp]; rfl)
  | markRaw c p =>
    rw [step_markRaw hp, Answer.ensures_next]
    exact Ordinary.keeps_of_calm (.uncalled rfl rfl rfl) (by rw [place, hp]; rfl)
  | raw c p =>
    rw [step_raw hp, State.writeRaw, State.onChannel_ensures]
    exact fun _ => State.send_keeps (by rw [place, hp]; rfl) _ _ (by cases p <;> rfl)
  | param p =>
    rw [step_param hp, State.writeParam, State.onChannel_ensures]
    exact fun _ => State.send_keeps (by rw [place, hp]; rfl) _ _ rfl
  | await a =>
    rw [step_await_onChannel hp, State.onChannel_ensures]
    exact fun _ => State.await_keeps hp
  | judge a bs =>
    refine step_judge_ensures hp
      (fun _ => Passing.exits (by rw [place, hp]; rfl) (.inr rfl) rfl rfl (by simp [hp]))
      (fun judged f => ?_)
      (fun f judged x => State.finishCheckDisk_keeps (s := s.tick) (bs := bs) (judged ▸ hp) x)
      (fun _ x => Passing.exits (by rw [place, hp]; rfl) (.inl rfl) rfl rfl (by simp [hp]))
      (fun _ x => Passing.exits (by rw [place, hp]; rfl) (.inl rfl) rfl rfl (by simp [hp]))
    exact Passing.of_place (by rw [place, hp]; rfl) rfl rfl rfl (by simp [hp, judged, Phase.inExchange])
      (fun _ => .inr (.inr (.inr (.inr (.inr (.inl ⟨f, rfl⟩)))))) (by simp [hp])
  | protect prot c =>
    rw [step_protect hp, Answer.ensures_next]
    exact Passing.exits (by rw [place, hp]; rfl) (.inl rfl) rfl rfl (by simp [hp])
  | length n c => rw [step_length hp]; exact Answer.ensures_next.mpr (State.setLength_keeps hp)
  | exit c =>
    rw [step_exit hp, Answer.ensures_next]
    exact Passing.exits (by rw [place, hp]; rfl) (.inr rfl) rfl rfl (by simp [hp])
  | ret c => rw [step_ret_handBack hp]; exact State.handBack_keeps hp
  | hs k =>
    refine step_hs_ensures hp (fun looks syncing major minor dot => ?_)
      fun t next => (hsStep_moves k t next).keeps hp
    subst looks
    exact HsMove.keeps (k := .look) (.stays rfl nofun rfl rfl ⟨rfl, rfl, rfl, rfl⟩ rfl) hp
  | closing =>
    rw [step_closing hp, State.finishClose, State.onChannel_ensures]
    exact fun _ => State.finishClose_keeps hp
  | shut => rw [step_shut hp]; exact Answer.ensures_next.mpr (State.shut_keeps hp)
  | stream k =>
    refine step_stream_ensures hp (fun b here _ => ?_) (fun here _ => ?_) (streamStep_keeps hp)
    · subst here; exact State.nextSymbol_keeps (s := s.tick) hp ⟨rfl, rfl⟩ rfl _
    · subst here; exact State.streamFinished_keeps (s := s.tick) hp
  | block =>
    rw [step_block hp, State.blockPoll, State.onChannel_ensures]
    exact fun _ => Ordinary.keeps_of_calm (.uncalled rfl rfl rfl) (by rw [place, hp]; rfl)
  | framing bs =>
    rw [step_framing hp, Answer.ensures_next]
    exact Ordinary.keeps_of_calm (.uncalled rfl rfl rfl) (by rw [place, hp]; rfl)
  | framed => rw [step_framed hp]; exact Answer.ensures_next.mpr (State.blockFramed_keeps hp)
  | payload precomp =>
    rw [step_payload hp, State.writePayload, State.onChannel_ensures]
    exact fun _ => Ordinary.keeps_of_calm (.uncalled rfl rfl rfl) (by rw [place, hp]; rfl)
  | scan =>
    have here : s.tick.phase.calm = true := by rw [place, hp]; rfl
    have going : (s.tick.setDec (s.dec.iterate s.par s.cap)).phase.ordinary = true :=
      (Phase.of_calm here).1
    exact step_scan_ensures hp (s.tick.endScan_ordinary.keeps_of_calm here)
      (Ordinary.keeps_of_calm (.uncalled going rfl rfl) here)
  | seek track head =>
    rw [step_seek hp]
    exact fun t next => (State.seekStep_ordinary _ _ t next).keeps_of_calm (by rw [place, hp]; rfl)

/-- Settles O56. -/
theorem stepsKeepTheSessionConsistent : Obligations.StepsKeepTheSessionConsistent :=
  fun s t inv next => ((step_keeps s t next).1 inv).2

/-- Settles O57. -/
theorem engineStateMovesOnlyByItsTable : Obligations.EngineStateMovesOnlyByItsTable :=
  fun s t inv next => ((step_keeps s t next).1 inv).1

/-- Settles O58. -/
theorem stepsKeepTheStreamInBounds : Obligations.StepsKeepTheStreamInBounds :=
  fun s t inv next => (step_keeps s t next).2 inv

/-- Settles O60: nothing is under way at reset and no operation waits. -/
theorem resetLeavesTheStatedValues : Obligations.ResetLeavesTheStatedValues := by
  unfold Obligations.ResetLeavesTheStatedValues
  refine ⟨rfl, rfl, rfl, rfl, rfl, rfl, rfl, rfl, rfl, rfl, rfl, rfl, rfl, rfl, rfl, rfl, rfl, rfl, rfl, rfl, rfl,
    rfl, rfl, ?_, ?_, ?_⟩
  · exact ⟨rfl, rfl, rfl⟩
  · exact .of_unbound nofun nofun nofun nofun
  · exact .outside (Nat.zero_le _) nofun nofun rfl (Nat.zero_le _) nofun

end Sys2Proof.Machine
end

section
/-! SUPPORT. The command/response primitive as a call, and the operations that move the engine state on its
code (42_commands.md sections 1 and 3, 44_track_write.md section 1). -/

namespace Sys2Proof.Machine

variable {s : State}

theorem step_exit_sending {e : Code} {rsp : List Byte} {rest : List Move} (hp : s.phase = .exit e)
    (he : s.env = Move.sending rsp :: rest) (ho : s.tp.isOpen = true) :
    step s = .next (State.returning { s with
      lastError := e, env := rest, tp := { s.tp with rx := s.tp.rx ++ rsp } } s.frames (Move.sending rsp)) := by
  rw [step_exit hp, State.tick_of_sending he ho]
  rfl

theorem step_exit_accepting {e : Code} {whole : Bool} {rest : List Move} (hp : s.phase = .exit e)
    (he : s.env = Move.accepting whole :: rest) :
    step s = .next (State.returning { s with lastError := e, env := rest } s.frames (Move.accepting whole)) := by
  rw [step_exit hp, State.tick_of_accepting he]
  rfl

/-- A code that nobody waits for ends the operation while the device sends. -/
theorem steps_ret_sending {c : Code} {rsp : List Byte} (hp : s.phase = .ret c) (hf : s.frames = [])
    (he : s.env = [Move.sending rsp]) (hb : s.beyond = .again []) (hops : s.ops = [])
    (ho : s.tp.isOpen = true) :
    steps 3 s = .next { s with
      phase := .idle, env := [], cur := Move.quiet, tp := { s.tp with rx := s.tp.rx ++ rsp } } := by
  have back := step_ret_unwaited hp hf
  rw [State.tick_of_sending he ho] at back
  have stays : ∀ u : State, u.Quiet → u.phase = .idle → u.ops = [] →
      step u = .next { u with cur := Move.quiet } := by
    intro u quiet idle unasked
    rw [step_unasked idle unasked, State.tick_quiet quiet]
  exact steps_of_step back (steps_of_step (stays _ ⟨rfl, hb⟩ rfl hops) (steps_one (stays _ ⟨rfl, hb⟩ rfl hops)))

/-- The command byte of a call is written, or not (42_commands.md R170). -/
theorem step_raw_accepting {c : Byte} {p : Option Byte} {whole : Bool} {rest : List Move}
    (hp : s.phase = .raw c p) (he : s.env = Move.accepting whole :: rest) (ho : s.tp.isOpen = true) :
    step s = .next (State.send { s with cur := Move.accepting whole, env := rest } [c] .sendFailed
      (afterCommandByte p)) := by
  rw [step_raw hp, State.tick_of_accepting he]
  exact if_pos ho

theorem step_param_accepting {p : Byte} {whole : Bool} {rest : List Move} (hp : s.phase = .param p)
    (he : s.env = Move.accepting whole :: rest) (ho : s.tp.isOpen = true) :
    step s = .next (State.send { s with cur := Move.accepting whole, env := rest } [p] .sendParameterFailed
      (.await .rsp1)) := by
  rw [step_param hp, State.tick_of_accepting he]
  exact if_pos ho

/-- A byte about to be written, the write of which fails with `e`: its exchange returns the response's code, or
`e`, to the operations that wait. -/
theorem steps_exchange {c : Byte} {e : Code} {fs : List Frame} {accepted : Bool} {rsp : List Byte}
    (write : step s = .next (State.send { s with
      frames := fs, cur := Move.accepting accepted, env := [Move.sending rsp] } [c] e (.await .rsp1)))
    (ho : s.tp.isOpen = true) (hr : s.tp.rx = []) (hb : s.beyond = .again []) :
    ∃ now, s.now ≤ now ∧ ∃ n ≤ 3, ∃ m, steps n s = .next (State.returning { s with
      lastError := if accepted then responseCode rsp else e, now := now, env := []
      tp := { s.tp with
        tx := s.tp.tx ++ (if accepted then [c] else []), rx := leftOver accepted 1 rsp } } fs m) := by
  cases accepted with
  | false =>
    rw [State.send_of_accepting rfl, if_neg (by decide)] at write
    refine ⟨s.now + deadline s.tp.wrTimeout 1, Nat.le_add_right .., 2, by decide, Move.sending rsp,
      steps_of_step write (steps_one ((step_exit_sending rfl rfl ?_).trans ?_))⟩
    · exact ho
    simp only [State.returning, leftOver, hr, Bool.false_eq_true, if_false, List.append_nil, List.nil_append]
  | true =>
    rw [State.send_of_accepting rfl, if_pos rfl] at write
    exact ⟨_, Nat.le_add_right .., 3, le_rfl, _, steps_of_step write (steps_response rfl ho hr rfl hb)⟩

/-- The pause and the mark of a command byte given by a call, after the call (42_commands.md R170). -/
theorem steps_to_raw {o : Op} {c : Byte} {p : Option Byte} {fs : List Frame} (rest : List Move)
    (starts : ∀ t : State, t.st = s.st → t.par = s.par →
      startOp o t = .next { t with frames := fs ++ t.frames, phase := .pauseRaw c p }) :
    steps 3 (s.asked o (Move.quiet :: Move.quiet :: Move.quiet :: rest)) = .next { s.asked o rest with
      lastCommand := c, phase := .raw c p, frames := fs ++ [], ops := [], now := s.now + 1
      cur := Move.quiet } := by
  have start : step (s.asked o (Move.quiet :: Move.quiet :: Move.quiet :: rest)) = .next
      { s.asked o (Move.quiet :: Move.quiet :: rest) with
        phase := .pauseRaw c p, frames := fs ++ [], ops := [], cur := Move.quiet } := by
    rw [step_start rfl rfl, State.tick_of_quiet_move rfl]
    exact starts _ rfl rfl
  refine steps_of_step start (steps_of_step (step_pauseRaw rfl) (steps_one ?_))
  rw [State.tick_of_quiet_move rfl, step_markRaw rfl, State.tick_of_quiet_move rfl]
  rfl

/-- The call of a command byte without a parameter is an exchange. -/
theorem steps_raw_exchange {o : Op} {c : Byte} {fs : List Frame}
    (starts : ∀ t : State, t.st = s.st → t.par = s.par →
      startOp o t = .next { t with frames := fs ++ t.frames, phase := .pauseRaw c none })
    (accepted : Bool) (rsp : List Byte) :
    ∃ now, s.now + 1 ≤ now ∧ ∃ n ≤ 6, ∃ m, steps n (s.asked o (Move.exchange accepted rsp)) = .next
      (((s.asked o []).finished c (if accepted then [c] else []) (leftOver accepted 1 rsp)
        (commandCode accepted rsp) now).returning (fs ++ []) m) := by
  have reach := steps_to_raw [Move.accepting accepted, Move.sending rsp] starts
  obtain ⟨now, later, n, few, m, exchange⟩ := steps_exchange (s := { s.asked o
      [Move.accepting accepted, Move.sending rsp] with
      lastCommand := c, phase := .raw c none, frames := fs ++ [], ops := [], now := s.now + 1
      cur := Move.quiet }) (c := c) (e := .sendFailed) (fs := fs ++ []) (accepted := accepted) (rsp := rsp)  (by
      rw [step_raw_accepting rfl rfl rfl]
      rfl) rfl rfl rfl
  exact ⟨now, later, 3 + n, by omega, m, (steps_add reach n).trans exchange⟩

/-- Settles O23: without a parameter the call is one exchange; with one, the parameter byte is written in an
exchange of its own after the command byte. -/
theorem commandPrimitiveReturnsItsCode : Obligations.CommandPrimitiveReturnsItsCode := by
  intro s c accepted rsp hs may
  have starts : ∀ (p : Option Byte) (t : State), t.st = s.st → t.par = s.par →
      startOp (.runCommand c p) t = .next { t with frames := [] ++ t.frames, phase := .pauseRaw c p } := by
    intro p t st par
    rw [← st] at hs
    rw [← par] at may
    simp only [startOp, State.startRunCommand, hs, may, Bool.true_eq_false, if_false]
    rfl
  refine ⟨?_, fun p accepted' => ?_⟩
  · obtain ⟨now, later, n, few, m, exchange⟩ := steps_raw_exchange (starts none) accepted rsp
    exact ⟨now, later, (State.finished_atRest ..).steps_of_returning exchange (by omega)⟩
  · have reach := steps_to_raw [Move.accepting accepted, Move.accepting accepted', Move.sending rsp] (starts (some p))
    cases accepted with
    | true =>
      obtain ⟨now, later, n, few, m, exchange⟩ := steps_exchange (s := { s.asked (.runCommand c (some p))
          [Move.accepting accepted', Move.sending rsp] with
          lastCommand := c, phase := .param p, ops := [], now := s.now + 1, cur := Move.accepting true
          tp := { s.tp with isOpen := true, rx := [], tx := s.tp.tx ++ [c] } })
        (c := p) (e := .sendParameterFailed) (fs := []) (accepted := accepted') (rsp := rsp)  (by
          rw [step_param_accepting rfl rfl rfl]
          rfl) rfl rfl rfl
      refine ⟨now, later, (State.finished_atRest ..).steps_of_returning (n := 3 + (1 + n)) (m := m) ?_ (by omega)⟩
      have write := step_raw_accepting (s := { s.asked (.runCommand c (some p))
        [Move.accepting true, Move.accepting accepted', Move.sending rsp] with
        lastCommand := c, phase := .raw c (some p), ops := [], now := s.now + 1, cur := Move.quiet }) rfl rfl rfl
      rw [State.send_of_accepting rfl, if_pos rfl] at write
      refine (steps_add reach _).trans ((steps_add (steps_one write) n).trans (exchange.trans ?_))
      simp [State.returning, State.finished, State.asked]
    | false =>
      have write := step_raw_accepting (s := { s.asked (.runCommand c (some p))
        [Move.accepting false, Move.accepting accepted', Move.sending rsp] with
        lastCommand := c, phase := .raw c (some p), ops := [], now := s.now + 1, cur := Move.quiet }) rfl rfl rfl
      rw [State.send_of_accepting rfl, if_neg (by decide)] at write
      refine ⟨s.now + 1 + deadline s.tp.wrTimeout 1, by omega, ?_⟩
      refine (steps_add reach 5).trans (steps_of_step write (steps_of_step (step_exit_accepting rfl rfl) ?_))
      rw [steps_ret_sending rfl rfl rfl rfl rfl rfl]
      simp [State.returning, State.finished, State.asked, leftOver]

/-! ### The operations that move the engine state -/

/-- A command of one byte whose response is read as RSP1 is an exchange. -/
theorem steps_command_exchange {o : Op} {c : Byte} {i : Instr}
    (starts : ∀ t : State, t.st = s.st → startOp o t = .next (t.goto (.pause [c])))
    (decodes : ∀ k, decode k .command [c] = .instr i) (encodes : ∀ k, encode k i = [c])
    (writes : ∀ t : State, t.st = s.st → t.writes i = true) (awaits : afterWrite i = .await .rsp1)
    (accepted : Bool) (rsp : List Byte) :
    ∃ now, s.now + 1 ≤ now ∧ ∃ n ≤ 6, ∃ m, steps n (s.asked o (Move.exchange accepted rsp)) = .next
      (((s.asked o []).finished c (if accepted then [c] else []) (leftOver accepted 1 rsp)
        (commandCode accepted rsp) now).returning (waitingFor i ++ []) m) := by
  have start : step (s.asked o (Move.exchange accepted rsp)) = .next
      { s.asked o [Move.quiet, Move.quiet, Move.accepting accepted, Move.sending rsp] with
        phase := .pause [c], ops := [], cur := Move.quiet } := by
    rw [Move.exchange, step_start rfl rfl, State.tick_of_quiet_move rfl]
    exact starts _ rfl
  have reach := steps_of_step start (steps_pause_and_mark (w := [c]) rfl rfl)
  have written : ∀ t : State, t.phase = .issue [c] → t.tp.isOpen = true → t.st = s.st →
      exec i t = .next (t.sendInstr i) := fun t hp ho st => exec_of_writes hp ho (writes t st)
  obtain ⟨now, later, n, few, m, exchange⟩ := steps_exchange (s := { s.asked o
      [Move.accepting accepted, Move.sending rsp] with
      lastCommand := c, phase := .issue [c], ops := [], now := s.now + 1
      cur := Move.quiet }) (c := c) (e := .sendFailed) (fs := waitingFor i ++ []) (accepted := accepted)
      (rsp := rsp) (by
    rw [step_issue rfl (decodes _), State.tick_of_accepting rfl]
    refine (written _ ?_ ?_ ?_).trans ?_
    · rfl
    · rfl
    · rfl
    rw [State.sendInstr, encodes, awaits]
    rfl) rfl rfl rfl
  exact ⟨now, later, 3 + n, by omega, m, (steps_add reach n).trans exchange⟩

/-- After the exchange of an operation that moves the engine state on some codes, at most two steps lead to the
end. -/
theorem State.AtRest.steps_moveAndReturn {u v : State} {n : Nat} {m : Move} {f : Frame} {moves : Bool}
    {st : EngineState} (h : u.AtRest) (run : steps n v = .next (u.returning [f] m)) (few : n ≤ 6)
    (resumes : ∀ t : State, t.st = u.st →
      resume f u.lastError t = .next (t.moveAndReturn moves st u.lastError)) :
    steps 9 v = .next { u with st := if moves then st else u.st } := by
  have back := (steps_add run 1).trans (steps_one ((step_returning h.quiet).trans (resumes _ rfl)))
  cases moves with
  | false => exact h.steps_of_returning back (by omega)
  | true =>
    have moved : State.AtRest { u with st := st } := ⟨h.quiet, h.phase, h.frames, h.ops, h.cur⟩
    exact moved.steps_of_returning ((steps_add back 1).trans (steps_one (step_exit_quiet h.quiet rfl))) (by omega)

/-- Settles O27: each of the operations is one exchange, whose code goes to the operation that moves the engine
state. -/
theorem motorAndWriteEnableMoveTheState : Obligations.MotorAndWriteEnableMoveTheState := by
  intro s accepted rsp
  refine ⟨fun st => ?_, fun st => ?_, fun st => ?_, fun st => ?_⟩
  · obtain ⟨now, later, n, few, m, exchange⟩ := steps_command_exchange (s := s) (o := .enableReading true) (c := 0x2B)
      (i := .enable) (fun t same => if_pos (by simpa [same] using st)) (fun _ => rfl) (fun _ => rfl)
      (fun t same => by simpa [State.writes, State.allows, same] using st) rfl accepted rsp
    refine ⟨now, later, ((State.finished_atRest ..).steps_moveAndReturn
      (moves := commandCode accepted rsp == .ok && s.st == .ready) (st := .readEnabled) exchange few
      fun t same => ?_).trans ?_⟩
    · simp only [resume, State.afterEnable, same]
      rfl
    · by_cases ok : commandCode accepted rsp = .ok
      · rcases st with st | st <;> simp [ok, st, State.finished, State.asked]
      · simp [ok, State.finished, State.asked]
  · have refused : step (s.asked (.enableReading true) (Move.exchange accepted rsp)) = .refused .wrongState := by
      rw [Move.exchange, step_start rfl rfl, State.tick_of_quiet_move rfl]
      exact if_neg (by simp [State.asked, st])
    rw [steps, refused]
  · obtain ⟨now, later, n, few, m, exchange⟩ := steps_command_exchange (s := s) (o := .enableReading false) (c := 0x2D)
      (i := .disable) (fun t same => if_pos (by simpa [same] using st)) (fun _ => rfl) (fun _ => rfl)
      (fun t same => by simpa [State.writes, State.allows, same] using st) rfl accepted rsp
    refine ⟨now, later, ((State.finished_atRest ..).steps_moveAndReturn
      (moves := commandCode accepted rsp == .ok && (s.st == .readEnabled || s.st == .writeEnabled)) (st := .ready)
      exchange few fun t same => ?_).trans ?_⟩
    · simp only [resume, State.afterDisable, same]
      rfl
    · by_cases ok : commandCode accepted rsp = .ok
      · cases here : s.st <;> simp [here, EngineState.commands] at st <;> simp [ok, here, State.finished, State.asked]
      · simp [ok, State.finished, State.asked]
  · obtain ⟨now, later, n, few, m, exchange⟩ := steps_raw_exchange (s := s) (o := .enableWriting)
      (c := s.par.cmdEnableWrite) (fs := [.enableWrite])
      (fun t same par => by
        rw [← par]
        exact if_neg (by simp [same, st])) accepted rsp
    refine ⟨now, later, ((State.finished_atRest ..).steps_moveAndReturn
      (moves := commandCode accepted rsp == .ok && s.st == .ready) (st := .writeEnabled)
      exchange few fun t same => ?_).trans ?_⟩
    · simp only [resume, State.afterEnableWrite, same]
      rfl
    · simp [State.finished, State.asked]

end Sys2Proof.Machine
end

section
/-! SUPPORT. The handshake: the open, the sync loop, the version, the feature query and the firmware check
(41_handshake.md). -/

namespace Sys2Proof.Machine

variable {s : State}

/-! ### The version's firmware check and the feature query (41_handshake.md R157 to R159) -/

theorem featuresDue_iff (fw : Firmware) :
    featuresDue fw = true ↔ 1 < fw.major.toNat ∨ (fw.major.toNat = 1 ∧ 9 ≤ fw.minor.toNat) := by
  simp only [featuresDue, versionAtLeast, Bool.or_eq_true, Bool.and_eq_true, decide_eq_true_eq, beq_iff_eq]
  rfl

theorem firmwareAccepted_iff (fw : Firmware) (p : Params) : firmwareAccepted fw p = true ↔
    p.minMajor < fw.major.toNat ∨ (fw.major.toNat = p.minMajor ∧ p.minMinor ≤ fw.minor.toNat) := by
  simp [firmwareAccepted, versionAtLeast]

theorem steps_normal_timeouts (hq : s.Quiet) (ho : s.tp.isOpen = true) (hp : s.phase = .hs .normalRd) :
    steps 2 s = .next { s with
      tp := { s.tp with rdTimeout := s.par.normalRd, wrTimeout := s.par.normalWr }, cur := Move.quiet
      phase := .hs .ready } :=
  steps_of_step (step_hs_quiet hq hp nofun (if_pos ho)) (steps_one (step_hs_quiet hq rfl nofun (if_pos ho)))

theorem steps_ready (hq : s.Quiet) (hp : s.phase = .hs .ready) :
    steps 2 s = .next { s with
      st := .ready, lastError := .ok, phase := .ret .ok, cur := Move.quiet } :=
  steps_of_step (step_hs_quiet hq hp nofun rfl) (steps_one (step_quiet hq rfl))

/-- Firmware that is accepted: the normal timeouts, then `Ready` (41_handshake.md R159). -/
theorem steps_check_accepted (hq : s.Quiet) (ho : s.tp.isOpen = true) (hp : s.phase = .hs .check)
    (accepted : firmwareAccepted s.fw s.par = true) :
    steps 5 s = .next { s with
      st := .ready, lastError := .ok, phase := .ret .ok, cur := Move.quiet
      tp := { s.tp with rdTimeout := s.par.normalRd, wrTimeout := s.par.normalWr } } := by
  have check : step s = .next { s with cur := Move.quiet, phase := .hs .normalRd } :=
    step_hs_quiet hq hp nofun (congrArg _ (if_pos accepted))
  have timeouts := steps_normal_timeouts (s := { s with cur := Move.quiet, phase := .hs .normalRd }) hq ho rfl
  refine steps_of_step check ((steps_add timeouts 2).trans ?_)
  exact steps_ready hq rfl

/-- Older firmware: the port is closed (41_handshake.md R159). -/
theorem steps_check_old (hq : s.Quiet) (ho : s.tp.isOpen = true) (hp : s.phase = .hs .check)
    (old : ¬ firmwareAccepted s.fw s.par = true) :
    steps 4 s = .next { s with
      st := .closed, lastError := .oldFirmware, phase := .ret .oldFirmware, cur := Move.quiet
      tp := Transport.absent s.tp.saved } := by
  have check : step s = .next { s with cur := Move.quiet, phase := .hs (.close .oldFirmware) } :=
    step_hs_quiet hq hp nofun (congrArg _ (if_neg old))
  exact steps_of_step check (steps_close hq ho rfl)

theorem steps_purge (hq : s.Quiet) (ho : s.tp.isOpen = true) (hp : s.phase = .hs .purge1) :
    steps 3 s = .next { s with
      phase := .hs .query, cur := Move.quiet, now := s.now + Config.purgeSettle
      tp := { s.tp with rx := [], tx := [] } } := by
  have purge : step s = .next { s with
      phase := .hs .settle, cur := Move.quiet, tp := { s.tp with rx := [], tx := [] } } :=
    step_hs_quiet hq hp nofun (if_pos ho)
  have settle : step { s with
      phase := .hs .settle, cur := Move.quiet, tp := { s.tp with rx := [], tx := [] } } = .next { s with
      phase := .hs .purge2, cur := Move.quiet, now := s.now + Config.purgeSettle
      tp := { s.tp with rx := [], tx := [] } } := step_hs_quiet hq rfl nofun rfl
  exact steps_of_step purge (steps_of_step settle (steps_one (step_hs_quiet hq rfl nofun (if_pos ho))))

/-- Without the feature query the capability bytes are 0 (41_handshake.md R158). -/
theorem steps_no_query (hq : s.Quiet) (hp : s.phase = .hs .query) (undue : featuresDue s.fw = false) :
    steps 3 s = .next { s with
      fw := { s.fw with deviceFlags1 := 0, deviceFlags2 := 0, buildNumber := 0 }, cur := Move.quiet
      phase := .hs .check } := by
  have query : step s = .next { s with
      cur := Move.quiet, fw := { s.fw with deviceFlags1 := 0 }, phase := .hs (.flags2 0 0) } :=
    step_hs_quiet hq hp nofun (congrArg _ (if_neg (by simp [undue])))
  refine steps_of_step query (steps_of_step (step_hs_quiet hq rfl nofun rfl) ?_)
  exact steps_one (step_hs_quiet hq rfl nofun rfl)

/-- From the first purge to the check, for a version without the feature query. -/
theorem steps_purges (hq : s.Quiet) (ho : s.tp.isOpen = true) (hp : s.phase = .hs .purge1)
    (undue : featuresDue s.fw = false) :
    steps 6 s = .next { s with
      phase := .hs .check, cur := Move.quiet, now := s.now + Config.purgeSettle
      fw := { s.fw with deviceFlags1 := 0, deviceFlags2 := 0, buildNumber := 0 }
      tp := { s.tp with rx := [], tx := [] } } :=
  (steps_add (steps_purge hq ho hp) 3).trans (steps_no_query hq rfl undue)

/-- Settles O38. -/
theorem handshakeEndsReadyOrClosed : Obligations.HandshakeEndsReadyOrClosed := by
  refine ⟨fun s ho => ?_, fun s hp ho hq undue => ?_, fun s hp ho hq => ⟨fun enough => ?_, fun few => ?_⟩⟩
  · have opened : s.tick.tp.isOpen = true := (congrArg Control.isOpen s.tick_control).trans ho
    refine ⟨fun hp => ?_, fun hp => ⟨s.tick.now + Config.purgeSettle, ?_, ?_⟩, fun hp => ?_⟩
    · exact (step_hs hp nofun).trans (if_pos opened)
    · exact Nat.add_le_add_left (by decide : 1 ≤ Config.purgeSettle) _
    · exact step_hs hp nofun
    · exact (step_hs hp nofun).trans (if_pos opened)
  · have purged := steps_purges hq ho hp undue
    refine ⟨fun accepted => ⟨_, ?_, (steps_add purged 5).trans (steps_check_accepted hq ho rfl accepted)⟩,
      fun old => ⟨_, ?_, (steps_add purged 4).trans (steps_check_old hq ho rfl (ne_true_of_eq_false old))⟩⟩
    · exact Nat.add_le_add_left (by decide : 1 ≤ Config.purgeSettle) _
    · exact Nat.add_le_add_left (by decide : 1 ≤ Config.purgeSettle) _
  · exact steps_check_accepted hq ho hp ((firmwareAccepted_iff _ _).mpr enough)
  · refine (steps_check_old hq ho hp fun accepted => ?_)
    have := (firmwareAccepted_iff _ _).mp accepted
    omega

/-- A read in a quiet environment returns what is there, at once or at the deadline (40_transport.md R134). -/
theorem State.readTo_quiet (s : State) (max : Nat) (next : List Byte → Phase) :
    State.readTo { s with cur := Move.quiet } max next = { s with
      cur := Move.quiet, phase := next (s.tp.rx.take max)
      tp := { s.tp with rx := s.tp.rx.drop max }
      now := s.now + if s.tp.rx.length < max then deadline s.tp.rdTimeout max else 0 } := by
  have count : State.readCount { s with cur := Move.quiet } max = min max s.tp.rx.length := by
    simp [State.readCount, Move.quiet]
  have short : min max s.tp.rx.length < max ↔ s.tp.rx.length < max := by omega
  simp only [State.readTo, State.received, State.afterRead, State.goto, count, short]
  simp [← List.take_eq_take_min, ← List.drop_eq_drop_min, Move.quiet]

theorem step_featBytes_quiet (hq : s.Quiet) (ho : s.tp.isOpen = true) (hp : s.phase = .hs .featBytes) :
    step s = .next { s with
      cur := Move.quiet, phase := .hs (.features (s.tp.rx.take 3)), tp := { s.tp with rx := s.tp.rx.drop 3 }
      now := s.now + if s.tp.rx.length < 3 then deadline s.tp.rdTimeout 3 else 0 } :=
  step_hs_quiet hq hp nofun ((if_pos ho).trans (congrArg _ (s.readTo_quiet 3 _)))

theorem State.hsFeatures_of_few (s : State) {fs : List Byte} (few : fs.length < 3) :
    s.hsFeatures fs = { s with phase := .hs (.close .errorReadingVersion) } := by
  match fs, few with
  | [], _ | [_], _ | [_, _], _ => rfl

/-- Settles O39. -/
theorem featureQueryReadsThreeBytes : Obligations.FeatureQueryReadsThreeBytes := by
  intro s
  refine ⟨fun hp => ?_, fun f2 build hp => step_hs hp nofun, fun build hp => step_hs hp nofun, fun c rest hp hf => ?_,
    fun hp ho hq => ⟨fun f1 f2 build post rx => ?_, fun few => ?_⟩⟩
  · rw [step_hs hp nofun]
    split
    · next due => exact congrArg _ (if_pos ((featuresDue_iff _).mpr due))
    · next undue => exact congrArg _ (if_neg fun due => undue ((featuresDue_iff _).mp due))
  · rw [step_ret hp hf, resume, State.afterFeatures]
    split <;> rfl
  · have read := step_featBytes_quiet hq ho hp
    rw [rx] at read
    have first : step { s with
        cur := Move.quiet, tp := { s.tp with rx := post }, phase := .hs (.features [f1, f2, build]) }
        = .next { s with
          cur := Move.quiet, tp := { s.tp with rx := post }, fw := { s.fw with deviceFlags1 := f1 }
          phase := .hs (.flags2 f2 build) } := step_hs_quiet hq rfl nofun rfl
    refine steps_of_step (read.trans ?_) (steps_of_step first ?_)
    · simp
    · exact steps_of_step (step_hs_quiet hq rfl nofun rfl) (steps_one (step_hs_quiet hq rfl nofun rfl))
  · have read := step_featBytes_quiet hq ho hp
    rw [if_pos few, List.drop_of_length_le (by omega), List.take_of_length_le (by omega)] at read
    have fail : step { s with
        cur := Move.quiet, phase := .hs (.features s.tp.rx), tp := { s.tp with rx := [] }
        now := s.now + deadline s.tp.rdTimeout 3 } = .next { s with
        cur := Move.quiet, phase := .hs (.close .errorReadingVersion), tp := { s.tp with rx := [] }
        now := s.now + deadline s.tp.rdTimeout 3 } :=
      step_hs_quiet hq rfl nofun (congrArg _ (State.hsFeatures_of_few _ few))
    have close := steps_close (s := { s with
      cur := Move.quiet, phase := .hs (.close .errorReadingVersion), tp := { s.tp with rx := [] }
      now := s.now + deadline s.tp.rdTimeout 3 }) hq ho rfl
    exact steps_of_step read (steps_of_step fail close)

/-! ### The sync loop (41_handshake.md R153 to R156) -/


theorem State.hsFail_eq (s : State) (e : Code) :
    s.hsFail e = { s with phase := if s.hs.triggerReset then .hs .dtrLow else .hs (.close e) } := by
  cases h : s.hs.triggerReset <;> simp [State.hsFail, h, State.gotoHs, State.goto]

theorem State.hsEmptyPoll_of_unseen (h : s.hs.nSeen = 0) : s.hsEmptyPoll = { s with
    hs := { s.hs with nEmpty := s.hs.nEmpty + 1 }
    phase := if 7 ≤ s.hs.nEmpty + 1 then .mark [0x3F] else .hs .top } := by
  rw [State.hsEmptyPoll, if_pos h]
  by_cases limit : 7 ≤ s.hs.nEmpty + 1
  · rw [if_pos limit]; exact if_pos limit
  · rw [if_neg limit]; exact if_neg limit

/-- An empty poll of the sync loop in a quiet environment, as long as nothing has been received. -/
theorem steps_sync_empty_poll (hq : s.Quiet) (hp : s.phase = .hs .top) (ho : s.tp.isOpen = true)
    (hr : s.tp.rx = []) (seen : s.hs.nSeen = 0) (early : s.now < s.hs.t0 + 8000) :
    steps 3 s = .next { s with
      hs := { s.hs with nEmpty := s.hs.nEmpty + 1 }, cur := Move.quiet
      now := s.now + deadline s.tp.rdTimeout 1
      phase := if 7 ≤ s.hs.nEmpty + 1 then .mark [0x3F] else .hs .top } := by
  have top : step s = .next { s with cur := Move.quiet, phase := .hs .poll } :=
    step_hs_quiet hq hp nofun (congrArg _ (if_neg (by simp only [Config.syncTimeout]; omega)))
  have poll : step { s with cur := Move.quiet, phase := .hs .poll } = .next { s with
      cur := Move.quiet, now := s.now + deadline s.tp.rdTimeout 1, phase := .hs (.byte []) } :=
    step_hs_quiet hq rfl nofun ((if_pos ho).trans (congrArg _ (State.readTo_of_silence (n := 1)
      (s := { s with cur := Move.quiet, phase := .hs .poll }) hr (by decide) _)))
  exact steps_of_step top (steps_of_step poll (steps_one (step_hs_quiet hq rfl nofun
    (congrArg _ (State.hsEmptyPoll_of_unseen (s := { s with
      cur := Move.quiet, now := s.now + deadline s.tp.rdTimeout 1, phase := .hs (.byte []) }) seen)))))

/-- Empty polls up to the seventh. -/
theorem steps_sync_empty_polls (k : Nat) (hq : s.Quiet) (hp : s.phase = .hs .top) (ho : s.tp.isOpen = true)
    (hr : s.tp.rx = []) (seen : s.hs.nSeen = 0) (left : s.hs.nEmpty + k = 6)
    (early : s.now + k * deadline s.tp.rdTimeout 1 < s.hs.t0 + 8000) :
    steps (3 * (k + 1)) s = .next { s with
      hs := { s.hs with nEmpty := 7 }, phase := .mark [0x3F], cur := Move.quiet
      now := s.now + (k + 1) * deadline s.tp.rdTimeout 1 } := by
  induction k generalizing s with
  | zero =>
    have one := steps_sync_empty_poll hq hp ho hr seen (by omega)
    rw [show s.hs.nEmpty = 6 by omega] at one
    rw [Nat.zero_add, Nat.one_mul]
    exact one
  | succ k ih =>
    have one := steps_sync_empty_poll hq hp ho hr seen (by omega)
    rw [if_neg (by omega)] at one
    have sooner : s.now + deadline s.tp.rdTimeout 1 + k * deadline s.tp.rdTimeout 1 < s.hs.t0 + 8000 := by
      rw [Nat.succ_mul] at early
      omega
    have rest := ih (s := { s with
      hs := { s.hs with nEmpty := s.hs.nEmpty + 1 }, cur := Move.quiet
      now := s.now + deadline s.tp.rdTimeout 1, phase := .hs .top }) hq rfl ho hr seen
      (by simp only; omega) sooner
    rw [show 3 * (k + 1 + 1) = 3 + 3 * (k + 1) by omega, steps_add one, rest]
    simp only
    congr 2
    ring

/-- Settles O37. -/
theorem syncLoopKicksAndGivesUp : Obligations.SyncLoopKicksAndGivesUp := by
  intro s
  refine ⟨fun hp ho hq hr seen none early => ?_, fun hp late => ?_, fun b rest hp => step_hs hp nofun,
    fun b hp => step_hs hp nofun, fun hp unmatched => ?_⟩
  · exact steps_sync_empty_polls 6 hq hp ho hr seen (by omega) early
  · rw [step_hs hp nofun]
    have expired : Config.syncTimeout ≤ s.tick.now - s.tick.hs.t0 := by
      simp only [Config.syncTimeout, State.tick_fields] at *
      omega
    exact congrArg _ ((if_pos expired).trans (State.hsFail_eq _ _))
  · rw [step_look_unmatched hp unmatched]
    by_cases few : s.hs.nSeen ≤ 2048
    · rw [if_pos few]
      exact congrArg _ (if_neg (Nat.not_lt.mpr few))
    · rw [if_neg few]
      exact congrArg _ ((if_pos (Nat.not_le.mp few)).trans (State.hsFail_eq _ _))

end Sys2Proof.Machine
end

section
/-! SUPPORT. The sync loop finds the version reply, and the open reaches the loop
(41_handshake.md R151 to R156). -/

namespace Sys2Proof.Machine

variable {s : State}

/-! ### The window of the loop -/

/-- The window after some bytes. -/
def Window.pushAll (w : Window) (bs : List Byte) : Window := bs.foldl Window.push w

theorem Window.pushAll_append (w : Window) (bs cs : List Byte) :
    w.pushAll (bs ++ cs) = (w.pushAll bs).pushAll cs := List.foldl_append ..

theorem Window.bytes_push (w : Window) (b : Byte) (bs : List Byte) :
    (w.push b).bytes ++ bs = (w.bytes ++ b :: bs).drop 1 := rfl

/-- The window holds the last five of its bytes and those pushed. -/
theorem Window.bytes_pushAll (w : Window) (bs : List Byte) :
    (w.pushAll bs).bytes = (w.bytes ++ bs).drop bs.length := by
  induction bs generalizing w with
  | nil => exact (List.append_nil _).symm
  | cons b bs ih => exact (ih (w.push b)).trans (by rw [Window.bytes_push, List.drop_drop, List.length_cons, Nat.add_comm])

/-! ### A byte of the loop -/

/-- A byte is received, counted and shifted into the window. -/
theorem steps_sync_byte {b : Byte} {rest : List Byte} (hq : s.Quiet) (hp : s.phase = .hs .top)
    (ho : s.tp.isOpen = true) (rx : s.tp.rx = b :: rest) (early : s.now < s.hs.t0 + 8000) :
    steps 4 s = .next { s with
      hs := { s.hs with nSeen := s.hs.nSeen + 1, vwin := s.hs.vwin.push b }, cur := Move.quiet
      tp := { s.tp with rx := rest }, phase := .hs .look } := by
  have top : step s = .next { s with cur := Move.quiet, phase := .hs .poll } :=
    step_hs_quiet hq hp nofun (congrArg _ (if_neg (by simp only [Config.syncTimeout]; omega)))
  have poll : step { s with cur := Move.quiet, phase := .hs .poll } = .next { s with
      cur := Move.quiet, tp := { s.tp with rx := rest }, phase := .hs (.byte [b]) } := by
    refine step_hs_quiet hq rfl nofun ((if_pos ho).trans (congrArg _ ?_))
    refine (State.readTo_quiet { s with cur := Move.quiet, phase := .hs .poll } 1 _).trans ?_
    simp [rx]
  have count : step { s with
      cur := Move.quiet, tp := { s.tp with rx := rest }, phase := .hs (.byte [b]) } = .next { s with
      cur := Move.quiet, tp := { s.tp with rx := rest }, hs := { s.hs with nSeen := s.hs.nSeen + 1 }
      phase := .hs (.shift b) } := step_hs_quiet hq rfl nofun rfl
  exact steps_of_step top (steps_of_step poll (steps_of_step count (steps_one (step_hs_quiet hq rfl nofun rfl))))

/-- Bytes that complete no match leave the loop at its top. -/
theorem steps_sync_bytes {rest : List Byte} (bs : List Byte) (hq : s.Quiet) (ho : s.tp.isOpen = true)
    (rx : s.tp.rx = bs ++ rest) (early : s.now < s.hs.t0 + 8000) (few : s.hs.nSeen + bs.length ≤ 2048)
    (unmatched : ∀ k < bs.length,
      decodeVersion (((s.hs.vwin.bytes ++ s.tp.rx).drop (k + 1)).take 5) = .reject .notVersion) :
    steps (5 * bs.length) { s with cur := Move.quiet, phase := .hs .top } = .next { s with
      hs := { s.hs with nSeen := s.hs.nSeen + bs.length, vwin := s.hs.vwin.pushAll bs }, cur := Move.quiet
      tp := { s.tp with rx := rest }, phase := .hs .top } := by
  induction bs generalizing s with
  | nil =>
    rw [show rest = s.tp.rx from rx.symm]
    rfl
  | cons b bs ih =>
    have shift := steps_sync_byte (s := { s with cur := Move.quiet, phase := .hs .top }) hq rfl ho rx early
    have look : step { s with
        hs := { s.hs with nSeen := s.hs.nSeen + 1, vwin := s.hs.vwin.push b }, cur := Move.quiet
        tp := { s.tp with rx := bs ++ rest }, phase := .hs .look } = .next { s with
        hs := { s.hs with nSeen := s.hs.nSeen + 1, vwin := s.hs.vwin.push b }, cur := Move.quiet
        tp := { s.tp with rx := bs ++ rest }, phase := .hs .top } := by
      have first := unmatched 0 (Nat.succ_pos _)
      rw [rx] at first
      refine (step_look_unmatched (r := .notVersion) rfl ?_).trans ?_
      · exact first
      rw [State.tick_quiet (by exact hq)]
      refine congrArg _ (if_neg ?_)
      simp only [Config.syncMaxBytes, List.length_cons] at few ⊢
      omega
    have again := ih (s := { s with
      hs := { s.hs with nSeen := s.hs.nSeen + 1, vwin := s.hs.vwin.push b }, cur := Move.quiet
      tp := { s.tp with rx := bs ++ rest } }) hq ho rfl early
      (by simp only [List.length_cons] at few ⊢; omega)
      (fun k below => by
        have later := unmatched (k + 1) (Nat.succ_lt_succ below)
        rw [rx] at later
        exact later)
    have count : s.hs.nSeen + 1 + bs.length = s.hs.nSeen + (b :: bs).length := by
      rw [List.length_cons]
      omega
    rw [show 5 * (b :: bs).length = 4 + (1 + 5 * bs.length) by simp only [List.length_cons]; omega]
    refine (steps_add shift _).trans ((steps_add (steps_one look) _).trans (again.trans ?_))
    rw [← count]
    rfl

/-- The version reply is decoded from its characters. -/
theorem decodeVersion_reply {major sep minor : Byte} (low : 0x31 ≤ major.toNat) (high : major.toNat ≤ 0x39)
    (separates : sep = 0x2C ∨ sep = 0x2E) (low' : 0x30 ≤ minor.toNat) (high' : minor.toNat ≤ 0x39) :
    decodeVersion [0x31, 0x56, major, sep, minor] = .instr (.versionReply (BitVec.ofNat 4 (major.toNat - 0x30))
      (sep == 0x2E) (BitVec.ofNat 4 (minor.toNat - 0x30))) :=
  if_pos ⟨rfl, rfl, low, high, separates, by simp [isDigit, low', high']⟩

/-- The last byte of the reply is looked at, and the version recorded. -/
theorem steps_match {major minor : BitVec 4} {dot : Bool} (hq : s.Quiet) (hp : s.phase = .hs .look)
    (st : s.st = .syncing) (found : decodeVersion s.hs.vwin.bytes = .instr (.versionReply major dot minor)) :
    steps 3 s = .next { s with
      fw := { s.fw with major := major, minor := minor, fullControlMod := dot && s.par.fcmDot }
      cur := Move.quiet, phase := .hs .purge1 } := by
  have matched : step s = .next { s with
      fw := { s.fw with major := major }, cur := Move.quiet, phase := .hs (.minor minor dot) } := by
    rw [step_look_matched hp found, State.tick_quiet hq]
    exact if_pos ⟨st, hp⟩
  exact steps_of_step matched (steps_of_step (step_hs_quiet hq rfl nofun rfl)
    (steps_one (step_hs_quiet hq rfl nofun rfl)))

/-- The environment's last move is not looked at. -/
theorem steps_cur (s : State) (m : Move) (n : Nat) : steps (n + 1) { s with cur := m } = steps (n + 1) s := rfl

/-- Settles O36: the bytes before the reply's last one complete no match, and that one does. -/
theorem handshakeFindsTheVersionAtAnyOffset : Obligations.HandshakeFindsTheVersionAtAnyOffset := by
  intro s pre post major sep minor st hp ho hq early few rx low high separates low' high' unmatched
  have length : (pre ++ [0x31, 0x56, major, sep]).length = pre.length + 4 := by simp
  have before := steps_sync_bytes (rest := minor :: post) (pre ++ [0x31, 0x56, major, sep]) hq ho
    (by simp [rx]) early (by rw [length]; omega) (by rw [length]; exact unmatched)
  have last := steps_sync_byte (b := minor) (rest := post) (s := { s with
    hs := { s.hs with
      nSeen := s.hs.nSeen + (pre ++ [0x31, 0x56, major, sep]).length
      vwin := s.hs.vwin.pushAll (pre ++ [0x31, 0x56, major, sep]) }
    cur := Move.quiet, tp := { s.tp with rx := minor :: post }, phase := .hs .top }) hq rfl ho rfl early
  rw [length, Window.pushAll_append] at before last
  have found := steps_match (s := { s with
    hs := { s.hs with
      nSeen := s.hs.nSeen + (pre.length + 4) + 1
      vwin := ((s.hs.vwin.pushAll pre).pushAll [0x31, 0x56, major, sep]).push minor }
    cur := Move.quiet, tp := { s.tp with rx := post }, phase := .hs .look }) hq rfl st
    (decodeVersion_reply low high separates low' high')
  have run := (steps_add before (4 + 3)).trans ((steps_add last 3).trans found)
  refine ⟨_, Eq.trans ?_ run, rfl, st, rfl, rfl, rfl, rfl, rfl, rfl, rfl⟩
  rw [← hp, show 5 * (pre.length + 5) + 2 = 5 * (pre.length + 4) + 6 + 1 by omega]
  exact (steps_cur s Move.quiet _).symm

/-! ### The open (41_handshake.md R151, R152) -/

/-- A move that answers a call and does nothing else. -/
theorem State.tick_of_answering {m : Move} {rest : List Move} (h : s.env = m :: rest) (dt : m.dt = 0)
    (arrive : m.arrive = []) (drain : m.drain = 0) (cts : m.cts = none) (abort : m.abort = none) :
    s.tick = { s with cur := m, env := rest } := by
  simp [State.tick, State.nextMove, State.restMoves, State.restBeyond, h, Transport.serve, dt, arrive, drain, cts,
    abort]

theorem step_openPort {path : String} {flow reset : Bool} {rest : List Move} (st : s.st = .closed)
    (hp : s.phase = .idle) (hops : s.ops = [.openPort path flow reset]) (he : s.env = Move.quiet :: rest) :
    step s = .next { s with
      ops := [], env := rest, cur := Move.quiet, phase := .hs .open
      hs := { s.hs with path := path, ctsFlow := flow, triggerReset := reset } } := by
  rw [step_start hp hops, State.tick_of_quiet_move he]
  exact if_pos st

/-- After the port is configured: the timeouts, and `Syncing`. -/
theorem steps_sync_timeouts (hq : s.Quiet) (ho : s.tp.isOpen = true) (hp : s.phase = .hs .syncRd) :
    steps 3 s = .next { s with
      st := .syncing, cur := Move.quiet, phase := .hs .greet
      tp := { s.tp with rdTimeout := s.par.syncRd, wrTimeout := s.par.syncWr } } := by
  have rd : step s = .next { s with
      cur := Move.quiet, phase := .hs .syncWr, tp := { s.tp with rdTimeout := s.par.syncRd } } :=
    step_hs_quiet hq hp nofun (if_pos ho)
  exact steps_of_step rd (steps_of_step (step_hs_quiet hq rfl nofun (if_pos ho))
    (steps_one (step_hs_quiet hq rfl nofun rfl)))

/-- The opening write, accepted whole (41_handshake.md R152). -/
theorem steps_greet (hq : s.Quiet) (ho : s.tp.isOpen = true) (hp : s.phase = .hs .greet) :
    steps 2 s = .next { s with
      lastCommand := 0x3F, cur := Move.quiet, phase := .hs .zeroWindow
      tp := { s.tp with tx := s.tp.tx ++ [0x78, s.par.cmdReset, 0x3F] } } := by
  have greet : step s = .next { s with lastCommand := 0x3F, cur := Move.quiet, phase := .hs .hello } :=
    step_hs_quiet hq hp nofun rfl
  refine steps_of_step greet (steps_one (step_hs_quiet hq rfl nofun ((if_pos ho).trans (congrArg _ ?_))))
  simp [State.hsHello, State.wrote, State.accepted, Move.quiet, State.gotoHs, State.goto, Cmd.abort, Cmd.version]

/-- The loop's registers at their initial values. -/
theorem steps_sync_registers (hq : s.Quiet) (hp : s.phase = .hs .zeroWindow) :
    steps 4 s = .next { s with
      cur := Move.quiet, phase := .hs .top
      hs := { s.hs with vwin := Window.zero, nSeen := 0, nEmpty := 0, t0 := s.now } } := by
  have window : step s = .next { s with
      cur := Move.quiet, phase := .hs .zeroSeen, hs := { s.hs with vwin := Window.zero } } :=
    step_hs_quiet hq hp nofun rfl
  have seen : step { s with
      cur := Move.quiet, phase := .hs .zeroSeen, hs := { s.hs with vwin := Window.zero } } = .next { s with
      cur := Move.quiet, phase := .hs .zeroEmpty, hs := { s.hs with vwin := Window.zero, nSeen := 0 } } :=
    step_hs_quiet hq rfl nofun rfl
  exact steps_of_step window (steps_of_step seen (steps_of_step (step_hs_quiet hq rfl nofun rfl)
    (steps_one (step_hs_quiet hq rfl nofun rfl))))

theorem step_open_failed {e : PortError} {rest : List Move} (hp : s.phase = .hs .open)
    (he : s.env = { Move.quiet with openAnswer := .failed e } :: rest) :
    step s = .next { s with
      cur := { Move.quiet with openAnswer := .failed e }, env := rest, phase := .exit (portCode e) } := by
  rw [step_hs hp nofun, State.tick_of_answering he rfl rfl rfl rfl rfl]
  rfl

theorem step_open_opened {line : Line} {dtr rts : Bool} {rest : List Move} (hp : s.phase = .hs .open)
    (he : s.env = { Move.quiet with openAnswer := .opened line dtr rts } :: rest) :
    step s = .next { s with
      cur := { Move.quiet with openAnswer := .opened line dtr rts }, env := rest, phase := .hs .configure
      tp := { Transport.absent line with isOpen := true, path := s.hs.path, dtr := dtr, rts := rts } } := by
  rw [step_hs hp nofun, State.tick_of_answering he rfl rfl rfl rfl rfl]
  rfl

theorem step_configure_failed {rest : List Move} (hp : s.phase = .hs .configure) (ho : s.tp.isOpen = true)
    (he : s.env = { Move.quiet with configOk := false } :: rest) :
    step s = .next { s with cur := { Move.quiet with configOk := false }, env := rest, phase := .hs .drop } := by
  rw [step_hs hp nofun, State.tick_of_answering he rfl rfl rfl rfl rfl]
  exact if_pos ho

theorem step_configure_quiet (hq : s.Quiet) (hp : s.phase = .hs .configure) (ho : s.tp.isOpen = true) :
    step s = .next { s with
      cur := Move.quiet, phase := .hs .syncRd
      tp := { s.tp with line := .raw8N1 s.par.baud s.hs.ctsFlow, dtr := true } } :=
  step_hs_quiet hq hp nofun (if_pos ho)

theorem step_drop (hq : s.Quiet) (hp : s.phase = .hs .drop) (ho : s.tp.isOpen = true) :
    step s = .next { s with
      cur := Move.quiet, phase := .exit .configError, tp := Transport.absent s.tp.saved } :=
  step_hs_quiet hq hp nofun (if_pos ho)

/-- An operation with a settled code and nobody waiting ends. -/
theorem State.AtRest.steps_exit {u : State} (h : u.AtRest) (m : Move) (c : Code) :
    steps 2 { u with cur := m, phase := .exit c } = .next { u with lastError := c } := by
  have rest : State.AtRest { u with lastError := c } := ⟨h.quiet, h.phase, h.frames, h.ops, h.cur⟩
  have exit : step { u with cur := m, phase := .exit c }
      = .next (State.returning { u with lastError := c } [] Move.quiet) := by
    rw [← h.frames]
    exact step_exit_quiet h.quiet rfl
  exact steps_of_step exit (rest.steps_returning Move.quiet 0)

/-- Settles O35. -/
theorem openPortReachesTheSyncLoop : Obligations.OpenPortReachesTheSyncLoop := by
  intro s path flow reset line dtr rts e st hp hf hops hb u hu
  have rest : u.AtRest := by
    subst hu
    exact ⟨⟨rfl, hb⟩, hp, hf, rfl, rfl⟩
  subst hu
  refine ⟨fun env => ?_, fun env => ?_, fun env => ?_⟩
  · have failed := steps_of_step (step_openPort st hp hops env) (steps_one (step_open_failed rfl rfl))
    refine (steps_add failed 2).trans ((rest.steps_exit _ (portCode e)).trans ?_)
    cases e <;> rfl
  · have opened := steps_of_step (step_openPort st hp hops env) (steps_one (step_open_opened rfl rfl))
    have dropped := steps_of_step (step_configure_failed (rest := []) (s := { s with
      ops := [], env := [{ Move.quiet with configOk := false }], phase := .hs .configure
      cur := { Move.quiet with openAnswer := .opened line dtr rts }
      hs := { s.hs with path := path, ctsFlow := flow, triggerReset := reset }
      tp := { Transport.absent line with isOpen := true, path := path, dtr := dtr, rts := rts } }) rfl rfl rfl)
      (steps_one (step_drop ⟨rfl, hb⟩ rfl rfl))
    have closed : State.AtRest { s with
        ops := [], env := [], cur := Move.quiet, tp := Transport.absent line
        hs := { s.hs with path := path, ctsFlow := flow, triggerReset := reset } } :=
      ⟨⟨rfl, hb⟩, hp, hf, rfl, rfl⟩
    exact (steps_add opened 4).trans ((steps_add dropped 2).trans (closed.steps_exit _ .configError))
  · have opened := steps_of_step (step_openPort st hp hops env) (steps_one (step_open_opened rfl rfl))
    have configured := step_configure_quiet (s := { s with
      ops := [], env := [], phase := .hs .configure, cur := { Move.quiet with openAnswer := .opened line dtr rts }
      hs := { s.hs with path := path, ctsFlow := flow, triggerReset := reset }
      tp := { Transport.absent line with isOpen := true, path := path, dtr := dtr, rts := rts } })
      ⟨rfl, hb⟩ rfl rfl
    have timeouts := steps_sync_timeouts (s := { s with
      ops := [], env := [], phase := .hs .syncRd, cur := Move.quiet
      hs := { s.hs with path := path, ctsFlow := flow, triggerReset := reset }
      tp := { Transport.absent line with
        isOpen := true, path := path, dtr := true, rts := rts, line := .raw8N1 s.par.baud flow } })
      ⟨rfl, hb⟩ rfl rfl
    have greeted := steps_greet (s := { s with
      ops := [], env := [], phase := .hs .greet, cur := Move.quiet, st := .syncing
      hs := { s.hs with path := path, ctsFlow := flow, triggerReset := reset }
      tp := { Transport.absent line with
        isOpen := true, path := path, dtr := true, rts := rts, line := .raw8N1 s.par.baud flow
        rdTimeout := s.par.syncRd, wrTimeout := s.par.syncWr } })
      ⟨rfl, hb⟩ rfl rfl
    refine (steps_add opened 10).trans (steps_of_step configured ((steps_add timeouts 6).trans
      ((steps_add greeted 4).trans ?_)))
    exact steps_sync_registers ⟨rfl, hb⟩ rfl

end Sys2Proof.Machine
end

section
/-! SUPPORT. The streamed read: its start, its loop, the abort flag and the echo
(43_streaming_read.md R200 to R211). -/

namespace Sys2Proof.Machine

variable {s t : State}

/-! ### The start (43_streaming_read.md R200, R201) -/

theorem steps_stream_flags (hq : s.Quiet) (hp : s.phase = .stream .enter) :
    steps 3 s = .next { s with
      st := .streaming, cur := Move.quiet, phase := .stream .initSent
      str := { s.str with awin := Window.zero, nStall := 0 } } := by
  have enter : step s = .next { s with st := .streaming, cur := Move.quiet, phase := .stream .initWindow } :=
    step_stream_quiet hq hp (fun _ => rfl) rfl
  exact steps_of_step enter (steps_of_step (step_stream_quiet hq rfl (fun _ => rfl) rfl)
    (steps_one (step_stream_quiet hq rfl (fun _ => rfl) rfl)))

theorem steps_stream_registers (hq : s.Quiet) (hp : s.phase = .stream .initSent) :
    steps 3 s = .next { s with
      cur := Move.quiet, phase := .stream .top
      str := { s.str with abortSent := false, userAbort := false, wcur := { pos := 0, bit := 0 } } } := by
  have sent : step s = .next { s with
      cur := Move.quiet, phase := .stream .initUser, str := { s.str with abortSent := false } } :=
    step_stream_quiet hq hp (fun _ => rfl) rfl
  exact steps_of_step sent (steps_of_step (step_stream_quiet hq rfl (fun _ => rfl) rfl)
    (steps_one (step_stream_quiet hq rfl (fun _ => rfl) rfl)))

/-- Settles O30. -/
theorem streamStartEntersStreamingOrRetriesOnce : Obligations.StreamStartEntersStreamingOrRetriesOnce := by
  refine ⟨fun s rest hp hops => ⟨fun st => ?_, fun st => ?_⟩, fun s c rest hp hf => ⟨fun ok => ?_, fun ok hq => ?_,
    fun failed => ?_⟩⟩
  · rw [step_start hp hops]
    exact if_neg (by simpa using st)
  · rw [step_start hp hops]
    exact if_pos (by simpa using st)
  · rw [step_ret hp hf]
    exact congrArg _ (if_pos ok)
  · have entered : step s = .next { s with
        abortRequested := false, frames := rest, cur := Move.quiet, phase := .stream .enter } := by
      rw [step_ret hp hf, State.tick_quiet hq]
      exact congrArg _ (if_pos ok)
    have flags := steps_stream_flags (s := { s with
      abortRequested := false, frames := rest, cur := Move.quiet, phase := .stream .enter }) hq rfl
    exact steps_of_step entered ((steps_add flags 3).trans (steps_stream_registers hq rfl))
  · rw [step_ret hp hf]
    refine congrArg _ ((if_neg failed).trans ?_)
    have retries : s.str.startTries + 1 < Config.streamStartTries ↔ s.str.startTries = 0 := by
      simp only [Config.streamStartTries]
      omega
    simp only [State.goto, State.setStr, State.pop, State.tick_fields, retries]
    rfl

/-! ### The abort flag (43_streaming_read.md R202, R204) -/

theorem State.streamGot_flag (s : State) (v : Bool) :
    State.streamGot { s with abortRequested := v } = { s.streamGot with abortRequested := v } := by
  simp only [State.streamGot]
  split <;> rfl

theorem State.streamBytes_flag (s : State) (v : Bool) :
    State.streamBytes { s with abortRequested := v } = { s.streamBytes with abortRequested := v } := by
  simp only [State.streamBytes]
  split <;> rfl

theorem State.nextSymbol_flag (s : State) (v : Bool) (xs : List Bool) :
    State.nextSymbol { s with abortRequested := v } xs = { s.nextSymbol xs with abortRequested := v } := by
  have full : State.written { s with abortRequested := v } = s.written := rfl
  by_cases h : s.written = 8 * s.cap.size
  · simp only [State.nextSymbol, full, if_pos h]
    rfl
  · simp only [State.nextSymbol, full, if_neg h]
    cases xs <;> rfl

theorem State.streamAborted_flag (s : State) (v : Bool) :
    State.streamAborted { s with abortRequested := v } = { s.streamAborted with abortRequested := v } := by
  simp only [State.streamAborted, State.setStr]
  split <;> rfl

/-- Away from the top of the loop a step of the stream does the same whatever the flag. -/
theorem State.streamStep_flag {k : StreamStep} (v : Bool) (other : k ≠ .top) (next : s.streamStep k = .next t) :
    ∃ v', State.streamStep { s with abortRequested := v } k = .next { t with abortRequested := v' } := by
  cases k with
  | top => exact absurd rfl other
  | poll =>
    obtain ⟨ho, rfl⟩ := State.onChannel_eq_next.mp next
    exact ⟨v, if_pos ho⟩
  | got => cases next; exact ⟨v, congrArg _ (s.streamGot_flag v)⟩
  | bytes => cases next; exact ⟨v, congrArg _ (s.streamBytes_flag v)⟩
  | symbols xs => cases next; exact ⟨v, congrArg _ (s.nextSymbol_flag v xs)⟩
  | aborted => cases next; exact ⟨v, congrArg _ (s.streamAborted_flag v)⟩
  | leaveFlag | stalled => cases next; exact ⟨false, rfl⟩
  | enter | initWindow | initStall | initSent | initUser | initCursor | chunk | byte | echo | advance
  | user | leaveState | stalledState => cases next; exact ⟨v, rfl⟩

/-- So does the whole step. -/
theorem step_stream_flag {k : StreamStep} (v : Bool) (hp : s.phase = .stream k) (other : k ≠ .top)
    (next : step s = .next t) :
    ∃ v', step { s with abortRequested := v } = .next { t with abortRequested := v' } := by
  have moved : (∀ r : State, r.fetchStream k = .moved (r.streamStep k)) →
      ∃ v', step { s with abortRequested := v } = .next { t with abortRequested := v' } := by
    intro plain
    rw [step_stream hp plain] at next
    rw [step_stream (s := { s with abortRequested := v }) hp plain]
    exact State.streamStep_flag (s.nextMove.abort.getD v) other next
  cases k with
  | byte b =>
    cases sent : s.str.abortSent with
    | true =>
      rw [step_echo_byte hp sent] at next
      rw [step_echo_byte (s := { s with abortRequested := v }) hp sent]
      cases next
      exact ⟨s.nextMove.abort.getD v, rfl⟩
    | false =>
      rw [step_stream_data hp sent] at next
      rw [step_stream_data (s := { s with abortRequested := v }) hp sent]
      simp only [exec, execStreamData] at next ⊢
      split at next
      · next here =>
        cases next
        exact ⟨s.nextMove.abort.getD v, (if_pos here).trans
          (congrArg _ (s.tick.nextSymbol_flag (s.nextMove.abort.getD v) _))⟩
      · cases next
  | echo =>
    cases decoded : decode s.par.sync .echo s.str.awin.bytes with
    | reject r =>
      rw [step_echo_unmatched hp decoded] at next
      rw [step_echo_unmatched (s := { s with abortRequested := v }) hp decoded]
      cases next
      exact ⟨s.nextMove.abort.getD v, rfl⟩
    | instr i =>
      obtain ⟨-, hc, -⟩ := encodeOfDecodeIsTheBytes _ _ _ _ decoded
      rw [step_echo_matched hp decoded] at next
      rw [step_echo_matched (s := { s with abortRequested := v }) hp decoded]
      cases i <;> cases hc
      simp only [exec, execAbortEcho] at next ⊢
      split at next
      · next here =>
        cases next
        exact ⟨s.nextMove.abort.getD v, if_pos here⟩
      · cases next
  | _ => exact moved fun _ => rfl

/-- Settles O31. -/
theorem abortFlagIsTakenBetweenChunksOnly : Obligations.AbortFlagIsTakenBetweenChunksOnly := by
  intro s
  refine ⟨fun hp => ?_, fun k v t hp other next => ?_, fun hp ho => ⟨?_, ?_⟩, fun bs hp => ?_, fun hp some => ?_,
    fun hp none => ?_⟩
  · rw [step_stream hp fun _ => rfl]
    have taken : (s.tick.abortRequested && !s.tick.str.abortSent) = true
        ↔ s.tick.abortRequested = true ∧ s.str.abortSent = false := by simp
    split
    · next here => exact congrArg _ (if_pos (taken.mpr here))
    · next here => exact congrArg _ (if_neg fun h => here (taken.mp h))
  · obtain ⟨v', same⟩ := step_stream_flag v hp other next
    exact ⟨_, same, rfl⟩
  · obtain ⟨length, few, -⟩ := s.tick.received_length 64
    exact length ▸ few
  · rw [step_stream hp fun _ => rfl]
    exact if_pos ((congrArg Control.isOpen s.tick_control).trans ho)
  · exact step_stream hp fun _ => rfl
  · rw [step_stream hp fun _ => rfl]
    obtain ⟨b, rest, chunk⟩ := List.exists_cons_of_ne_nil some
    simp only [State.streamStep, State.streamGot, State.tick_fields, chunk]
    rfl
  · rw [step_stream hp fun _ => rfl]
    simp only [State.streamStep, State.streamBytes, State.tick_fields, none]
    rfl

/-! ### The echo (43_streaming_read.md R206, R207) -/

/-- What a byte of the chunk after the abort byte leaves: all but the place, the chunk and the window. -/
def State.SameStream (s t : State) (chunk : List Byte) (awin : Window) : Prop :=
  t.st = s.st ∧ t.cap = s.cap ∧ t.frames = s.frames ∧ t.str = { s.str with chunk := chunk, awin := awin }

/-- After the abort byte a byte of the chunk goes into the echo window, whatever the environment does. -/
theorem steps_echo_byte {b : Byte} {rest : List Byte} (hp : s.phase = .stream .bytes)
    (sent : s.str.abortSent = true) (chunk : s.str.chunk = b :: rest) :
    ∃ t, steps 2 s = .next t ∧ t.phase = .stream .echo
      ∧ s.SameStream t rest (s.str.awin.push b) := by
  have taken : step s = .next (s.tick.setChunk rest (.byte b)) := by
    rw [step_stream hp fun _ => rfl]
    simp only [State.streamStep, State.streamBytes, State.tick_fields, chunk]
  have shifted := step_echo_byte (s := s.tick.setChunk rest (.byte b)) (b := b) rfl sent
  refine ⟨_, steps_of_step taken (steps_one shifted), rfl, ?_⟩
  simp [State.SameStream, State.echoByte, State.setChunk, State.gotoStream]

/-- A window that is no echo goes back to the chunk. -/
theorem step_no_echo (hp : s.phase = .stream .echo)
    (other : s.str.awin.bytes ≠ [0x58, 0x59, 0x5A, 0x78, 0x31]) :
    step s = .next (s.tick.gotoStream .bytes) :=
  step_echo_unmatched hp (if_neg other)

/-- The bytes of a chunk that complete no echo, in any environment. -/
theorem steps_echo_bytes {rest : List Byte} (bs : List Byte) (hp : s.phase = .stream .bytes)
    (sent : s.str.abortSent = true) (chunk : s.str.chunk = bs ++ rest)
    (unmatched : ∀ k < bs.length,
      ((s.str.awin.bytes ++ s.str.chunk).drop (k + 1)).take 5 ≠ [0x58, 0x59, 0x5A, 0x78, 0x31]) :
    ∃ t, steps (3 * bs.length) s = .next t ∧ t.phase = .stream .bytes
      ∧ s.SameStream t rest (s.str.awin.pushAll bs) := by
  induction bs generalizing s with
  | nil =>
    refine ⟨s, rfl, hp, rfl, rfl, rfl, ?_⟩
    rw [← List.nil_append rest, ← chunk]
    rfl
  | cons b bs ih =>
    obtain ⟨t, taken, there, st, cap, frames, str⟩ := steps_echo_byte hp sent chunk
    have other : t.str.awin.bytes ≠ [0x58, 0x59, 0x5A, 0x78, 0x31] := by
      have first := unmatched 0 (Nat.succ_pos _)
      rw [chunk] at first
      rw [str]
      exact first
    obtain ⟨u, run, place, st', cap', frames', str'⟩ := ih (s := t.tick.gotoStream .bytes) rfl
      (by simp [str, sent]) (by simp [str])
      (fun k below => by
        have later := unmatched (k + 1) (Nat.succ_lt_succ below)
        rw [chunk] at later
        simp only [State.gotoStream, State.goto_fields, State.tick_fields, str]
        exact later)
    refine ⟨u, ?_, place, st'.trans st, cap'.trans cap, frames'.trans frames, ?_⟩
    · rw [show 3 * (b :: bs).length = 2 + (1 + 3 * bs.length) by simp only [List.length_cons]; omega,
        steps_add taken, steps_add (steps_one (step_no_echo there other)), run]
    · rw [str']
      simp only [State.gotoStream, State.goto_fields, State.tick_fields, str]
      rfl

/-- From the end of the stream to the return of its code (43_streaming_read.md R207). -/
theorem steps_leave (hp : s.phase = .stream .leaveFlag) :
    ∃ t, steps 3 s = .next t ∧ t.st = .readEnabled ∧ t.cap = s.cap ∧ t.str = s.str ∧ t.frames = s.frames
      ∧ t.lastError = (if s.str.userAbort then .cancelled else .ok)
      ∧ t.phase = .ret (if s.str.userAbort then .cancelled else .ok) := by
  have flag : step s = .next (s.tick.clearAbort .leaveState) := step_stream hp fun _ => rfl
  have state := step_stream (s := s.tick.clearAbort .leaveState) (k := .leaveState) rfl fun _ => rfl
  have exit := step_exit (s := (s.tick.clearAbort .leaveState).tick.streamLeft) rfl
  refine ⟨_, steps_of_step flag (steps_of_step state (steps_one exit)), ?_⟩
  simp [State.streamLeft]

/-- Settles O33: the bytes before the echo's last one complete none, and that one does. -/
theorem echoAnywhereInTheChunkEndsTheRead : Obligations.EchoAnywhereInTheChunkEndsTheRead := by
  intro s pre post st hp sent chunk unmatched
  have length : (pre ++ [0x58, 0x59, 0x5A, 0x78]).length = pre.length + 4 := by simp
  obtain ⟨t, before, place, st', cap, frames, str⟩ := steps_echo_bytes (rest := 0x31 :: post)
    (pre ++ [0x58, 0x59, 0x5A, 0x78]) hp sent (by simp [chunk]) (by rw [length]; exact unmatched)
  obtain ⟨u, last, place', st'', cap', frames', str'⟩ := steps_echo_byte (b := 0x31) (rest := post) place
    (by rw [str]; exact sent) (by rw [str])
  have window : u.str.awin.bytes = [0x58, 0x59, 0x5A, 0x78, 0x31] := by
    rw [str', str, Window.pushAll_append]
    rfl
  have found : step u = .next u.tick.streamFinished := by
    rw [step_echo_matched (i := .abortEcho) place' (if_pos window)]
    exact if_pos ⟨(st''.trans st').trans st, place', by simp [str', str, sent]⟩
  obtain ⟨v, left, ready, cap'', str'', frames'', code, returned⟩ :=
    steps_leave (s := u.tick.streamFinished) rfl
  have streamed : u.tick.streamFinished.str = { s.str with
      chunk := post, awin := (s.str.awin.pushAll (pre ++ [0x58, 0x59, 0x5A, 0x78])).push 0x31 } := by
    simp [State.streamFinished, str', str]
  rw [streamed] at code returned str''
  refine ⟨v, ?_, ready, ?_, ?_, ?_, code, returned⟩
  · rw [show 3 * (pre.length + 5) + 3 = 3 * (pre.length + 4) + (2 + (1 + 3)) by omega, ← length,
      steps_add before, steps_add last, steps_add (steps_one found), left]
  · rw [cap'']
    simp [State.streamFinished, State.written, Cursor.linear, cap', cap, str', str]
  · rw [str'']
  · rw [frames'']
    simp [State.streamFinished, frames', frames]

/-! ### The stream that never ends (43_streaming_read.md R211) -/

/-- One byte of a device that sends the same byte before every step. -/
theorem State.tick_of_endless {b : Byte} (he : s.env = []) (hb : s.beyond = .again [Move.sending [b]])
    (ho : s.tp.isOpen = true) :
    s.tick = { s with cur := Move.sending [b], tp := { s.tp with rx := s.tp.rx ++ [b] } } := by
  simp [State.tick, State.nextMove, State.restMoves, State.restBeyond, he, hb, Transport.serve, ho,
    Move.sending, Move.quiet, Beyond.move, Beyond.next, Beyond.refill]

/-- No byte of an echo's last value is among these. -/
def Echoless (bs : List Byte) : Prop := ∀ x ∈ bs, x ≠ 0x31

/-- In the loop after the abort byte, with no last byte of an echo received and a device that sends for ever. -/
structure Endless (b : Byte) (s : State) : Prop where
  st : s.st = .streaming
  sent : s.str.abortSent = true
  isOpen : s.tp.isOpen = true
  env : s.env = []
  beyond : s.beyond = .again [Move.sending [b]]
  rx : Echoless s.tp.rx
  place : s.phase = .stream .top ∨ s.phase = .stream .poll
    ∨ (∃ bs, s.phase = .stream (.chunk bs) ∧ bs ≠ [] ∧ Echoless bs)
    ∨ Echoless s.str.chunk ∧ (s.phase = .stream .got ∧ s.str.chunk ≠ [] ∨ s.phase = .stream .bytes
      ∨ (∃ x, s.phase = .stream (.byte x) ∧ x ≠ 0x31)
      ∨ s.phase = .stream .echo ∧ s.str.awin.b4 ≠ 0x31)

/-- A poll that finds bytes, none of them the last of an echo, returns some of them. -/
theorem State.received_echoless (rx : Echoless s.tp.rx) (some : s.tp.rx ≠ []) (whole : s.cur.take = none) :
    s.received 64 ≠ [] ∧ Echoless (s.received 64) ∧ Echoless (s.afterRead 64).tp.rx := by
  have came : Echoless (s.received 64 ++ (s.afterRead 64).tp.rx) := by
    rw [s.received_append 64]
    exact rx
  refine ⟨fun none => ?_, fun x now => came x (List.mem_append_left _ now),
    fun x later => came x (List.mem_append_right _ later)⟩
  have length := (s.received_length 64).1
  have waiting := List.length_pos_iff.mpr some
  rw [none, State.readCount, whole, List.length_nil, Option.getD_none] at length
  omega

/-- Every step of such a read leads to such a read. -/
theorem Endless.step {b : Byte} (h : Endless b s) (other : b ≠ 0x31) : ∃ t, step s = .next t ∧ Endless b t := by
  obtain ⟨st, sent, ho, env, beyond, rx, place⟩ := h
  have tick := State.tick_of_endless env beyond ho
  have received : Echoless (s.tp.rx ++ [b]) := by
    intro x member
    rcases List.mem_append.mp member with old | new
    · exact rx x old
    · rw [List.mem_singleton.mp new]; exact other
  rcases place with hp | hp | ⟨bs, hp, some, bytes⟩ | ⟨chunk, ⟨hp, some⟩ | hp | ⟨x, hp, plain⟩ | ⟨hp, plain⟩⟩
  · refine ⟨s.tick.gotoStream .poll, ?_, ?_⟩
    · rw [step_stream hp fun _ => rfl]
      exact congrArg _ (if_neg (by simp [sent]))
    · rw [tick]
      exact ⟨st, sent, ho, env, beyond, received, .inr (.inl rfl)⟩
  · refine ⟨s.tick.readTo 64 fun bs => .stream (.chunk bs), ?_, ?_⟩
    · rw [step_stream hp fun _ => rfl]
      exact if_pos (by rw [tick]; exact ho)
    · rw [tick]
      obtain ⟨some, bytes, left⟩ := State.received_echoless (s := { s with
        cur := Move.sending [b], tp := { s.tp with rx := s.tp.rx ++ [b] } }) received (by simp) rfl
      exact ⟨st, sent, ho, env, beyond, left, .inr (.inr (.inl ⟨_, rfl, some, bytes⟩))⟩
  · refine ⟨s.tick.setChunk bs .got, step_stream hp fun _ => rfl, ?_⟩
    rw [tick]
    exact ⟨st, sent, ho, env, beyond, received, .inr (.inr (.inr ⟨bytes, .inl ⟨rfl, some⟩⟩))⟩
  · obtain ⟨y, ys, cons⟩ := List.exists_cons_of_ne_nil some
    refine ⟨(s.tick.setStr { s.tick.str with nStall := 0 }).gotoStream .bytes, ?_, ?_⟩
    · rw [step_stream hp fun _ => rfl]
      simp only [State.streamStep, State.streamGot, State.tick_fields, cons]
    · rw [tick]
      exact ⟨st, sent, ho, env, beyond, received, .inr (.inr (.inr ⟨chunk, .inr (.inl rfl)⟩))⟩
  · cases cons : s.str.chunk with
    | nil =>
      refine ⟨s.tick.gotoStream .top, ?_, ?_⟩
      · rw [step_stream hp fun _ => rfl]
        simp only [State.streamStep, State.streamBytes, State.tick_fields, cons]
      · rw [tick]
        exact ⟨st, sent, ho, env, beyond, received, .inl rfl⟩
    | cons y ys =>
      rw [cons] at chunk
      refine ⟨s.tick.setChunk ys (.byte y), ?_, ?_⟩
      · rw [step_stream hp fun _ => rfl]
        simp only [State.streamStep, State.streamBytes, State.tick_fields, cons]
      · rw [tick]
        exact ⟨st, sent, ho, env, beyond, received, .inr (.inr (.inr ⟨fun x below => chunk x (.tail _ below),
          .inr (.inr (.inl ⟨y, rfl, chunk y (.head _)⟩))⟩))⟩
  · refine ⟨s.tick.echoByte x, step_echo_byte hp sent, ?_⟩
    rw [tick]
    exact ⟨st, sent, ho, env, beyond, received, .inr (.inr (.inr ⟨chunk, .inr (.inr (.inr ⟨rfl, plain⟩))⟩))⟩
  · refine ⟨s.tick.gotoStream .bytes, step_no_echo hp fun echo => plain ?_, ?_⟩
    · simp only [Window.bytes, List.cons.injEq] at echo
      obtain ⟨-, -, -, -, last, -⟩ := echo
      exact last
    · rw [tick]
      exact ⟨st, sent, ho, env, beyond, received, .inr (.inr (.inr ⟨chunk, .inr (.inl rfl)⟩))⟩

theorem Endless.steps {b : Byte} (other : b ≠ 0x31) (n : Nat) (h : Endless b s) :
    ∃ t, steps n s = .next t ∧ Endless b t := by
  induction n generalizing s with
  | zero => exact ⟨s, rfl, h⟩
  | succ n ih =>
    obtain ⟨u, one, next⟩ := h.step other
    obtain ⟨t, run, last⟩ := ih next
    exact ⟨t, steps_of_step one run, last⟩

/-- A step of the loop that writes no bit, finds no echo and is not the last empty poll stays in the loop
(43_streaming_read.md R206, R208). -/
theorem step_waiting {k : StreamStep} (st : s.st = .streaming) (hp : s.phase = .stream k)
    (waits : k.waiting = true) (sent : s.str.abortSent = true) (ho : s.tp.isOpen = true)
    (few : k = .got → s.str.chunk = [] → s.str.nStall + 1 < 30)
    (other : k = .echo → s.str.awin.bytes ≠ [0x58, 0x59, 0x5A, 0x78, 0x31]) :
    ∃ t k', step s = .next t ∧ t.st = .streaming ∧ t.phase = .stream k' ∧ k'.waiting = true
      ∧ t.str.abortSent = true ∧ t.cap = s.cap := by
  cases k with
  | top =>
    refine ⟨s.tick.gotoStream .poll, _, ?_, st, rfl, rfl, sent, rfl⟩
    rw [step_stream hp fun _ => rfl]
    exact congrArg _ (if_neg (by simp [sent]))
  | poll =>
    refine ⟨s.tick.readTo 64 fun bs => .stream (.chunk bs), _, ?_, st, rfl, rfl, sent, rfl⟩
    rw [step_stream hp fun _ => rfl]
    exact if_pos ((congrArg Control.isOpen s.tick_control).trans ho)
  | chunk bs => exact ⟨s.tick.setChunk bs .got, _, step_stream hp fun _ => rfl, st, rfl, rfl, sent, rfl⟩
  | got =>
    cases chunk : s.str.chunk with
    | nil =>
      refine ⟨(s.tick.setStr { s.str with nStall := s.str.nStall + 1 }).gotoStream .top, _, ?_, st, rfl, rfl, sent,
        rfl⟩
      rw [step_stream hp fun _ => rfl]
      simp only [State.streamStep, State.streamGot, State.tick_fields, chunk, State.streamEmpty]
      rw [if_neg (show ¬ Config.stallPolls ≤ s.str.nStall + 1 from Nat.not_le.mpr (few rfl chunk))]
    | cons b bs =>
      refine ⟨(s.tick.setStr { s.str with nStall := 0 }).gotoStream .bytes, _, ?_, st, rfl, rfl, sent, rfl⟩
      rw [step_stream hp fun _ => rfl]
      simp only [State.streamStep, State.streamGot, State.tick_fields, chunk]
  | bytes =>
    cases chunk : s.str.chunk with
    | nil =>
      refine ⟨s.tick.gotoStream .top, _, ?_, st, rfl, rfl, sent, rfl⟩
      rw [step_stream hp fun _ => rfl]
      simp only [State.streamStep, State.streamBytes, State.tick_fields, chunk]
    | cons b bs =>
      refine ⟨s.tick.setChunk bs (.byte b), _, ?_, st, rfl, rfl, sent, rfl⟩
      rw [step_stream hp fun _ => rfl]
      simp only [State.streamStep, State.streamBytes, State.tick_fields, chunk]
  | byte b => exact ⟨s.tick.echoByte b, _, step_echo_byte hp sent, st, rfl, rfl, sent, rfl⟩
  | echo => exact ⟨s.tick.gotoStream .bytes, _, step_no_echo hp (other rfl), st, rfl, rfl, sent, rfl⟩
  | aborted =>
    obtain ⟨rest, -, next⟩ | ⟨-, next⟩ := s.tick.streamAborted_cases
    · exact ⟨_, _, (step_stream hp fun _ => rfl).trans (congrArg _ next), st, rfl, rfl, rfl, rfl⟩
    · exact ⟨_, _, (step_stream hp fun _ => rfl).trans (congrArg _ next), st, rfl, rfl, rfl, rfl⟩
  | user => exact ⟨_, _, step_stream hp fun _ => rfl, st, rfl, rfl, sent, rfl⟩
  | _ => cases waits

/-- Settles O34: a chunk without an echo, a single step, and the stream that never ends. -/
theorem streamWithoutEchoNeverLeavesStreaming : Obligations.StreamWithoutEchoNeverLeavesStreaming := by
  refine ⟨fun s st hp sent unmatched => ?_, fun s k st hp waits sent ho few other =>
    step_waiting st hp waits sent ho few other, fun s b st hp sent ho env beyond other rx n => ?_⟩
  · obtain ⟨t, run, place, st', cap, frames, str⟩ :=
      steps_echo_bytes (rest := []) s.str.chunk hp sent (List.append_nil _).symm unmatched
    have done : step t = .next (t.tick.gotoStream .top) := by
      rw [step_stream place fun _ => rfl]
      simp only [State.streamStep, State.streamBytes, State.tick_fields, str]
    refine ⟨_, (steps_add run 1).trans (steps_one done), st'.trans st, rfl, ?_, cap, ?_⟩
    · simp [str, sent]
    · simp [str, Window.bytes_pushAll]
  · have start : Endless b s := ⟨st, sent, ho, env, beyond, rx, .inl hp⟩
    obtain ⟨t, run, streams⟩ := start.steps other n
    exact ⟨t, run, streams.st⟩

end Sys2Proof.Machine
end

section
/-! SUPPORT. The transitions of a write buffer and the payload made of them
(44_track_write.md section 2, 30_encoding.md R102). -/

namespace Sys2Proof.Machine

variable {s : State}

/-! ### The transitions after some bits -/

/-- The cells passed since the last 1 bit; the bits before are given last first. -/
def sinceLast : List Bool → Option Nat
  | [] => none
  | true :: _ => some 0
  | false :: before => (sinceLast before).map (· + 1)

/-- The transitions of the bits that follow those before, which are given last first. -/
def transitionsAfter (before bits : List Bool) : List (Option Nat × Precomp) :=
  transitions (before.getD 1 false) (before.getD 0 false) (sinceLast before) bits

theorem transitions_eq_after (bits : List Bool) :
    transitions false false none bits = transitionsAfter [] bits := rfl

theorem transitionsAfter_true (before bits : List Bool) :
    transitionsAfter before (true :: bits) = ((sinceLast before).map (· + 1),
      precompHint (before.getD 1 false) (before.getD 0 false) (bits[0]?.getD false) (bits[1]?.getD false))
        :: transitionsAfter (true :: before) bits := rfl

theorem transitionsAfter_false (before bits : List Bool) :
    transitionsAfter before (false :: bits) = transitionsAfter (false :: before) bits := rfl

theorem length_transitionsAfter (before bits : List Bool) :
    (transitionsAfter before bits).length = bits.count true := by
  induction bits generalizing before with
  | nil => rfl
  | cons x bits ih =>
    cases x with
    | true => rw [transitionsAfter_true, List.length_cons, ih, List.count_cons_self]
    | false => rw [transitionsAfter_false, ih, List.count_cons_of_ne (by decide)]

/-- The transition of a 1 bit is that of the bits before it and the two after it. -/
theorem transitionsAfter_getElem? (before : List Bool) {bits : List Bool} {i : Nat} (one : bits[i]? = some true) :
    (transitionsAfter before bits)[(bits.take i).count true]? = some
      ((sinceLast ((bits.take i).reverse ++ before)).map (· + 1),
        precompHint (((bits.take i).reverse ++ before).getD 1 false)
          (((bits.take i).reverse ++ before).getD 0 false)
          (bits[i + 1]?.getD false) (bits[i + 2]?.getD false)) := by
  induction bits generalizing before i with
  | nil => cases one
  | cons x bits ih =>
    cases i with
    | zero =>
      cases one
      rfl
    | succ i =>
      have rest := ih (x :: before) (i := i) one
      rw [List.take_succ_cons, List.reverse_cons, List.append_assoc, List.singleton_append]
      cases x with
      | true =>
        rw [transitionsAfter_true, List.count_cons_self, List.getElem?_cons_succ]
        exact rest
      | false =>
        rw [transitionsAfter_false, List.count_cons_of_ne (by decide)]
        exact rest

/-! ### Runs and hints -/

theorem sinceLast_eq_none_iff (before : List Bool) : sinceLast before = none ↔ ∀ x ∈ before, x = false := by
  induction before with
  | nil => simp [sinceLast]
  | cons x before ih => cases x <;> simp [sinceLast, ih]

theorem sinceLast_spec {before : List Bool} {n : Nat} (h : sinceLast before = some n) :
    before[n]? = some true ∧ ∀ j < n, before[j]? = some false := by
  induction before generalizing n with
  | nil => cases h
  | cons x before ih =>
    cases x with
    | true =>
      cases h
      exact ⟨rfl, nofun⟩
    | false =>
      obtain ⟨m, since, rfl⟩ := Option.map_eq_some_iff.mp h
      obtain ⟨one, zeros⟩ := ih since
      refine ⟨one, fun j below => ?_⟩
      cases j with
      | zero => rfl
      | succ j => exact zeros j (Nat.lt_of_succ_lt_succ below)

theorem precompHint_eq (p2 p1 n1 n2 : Bool) : precompHint p2 p1 n1 n2 =
    if p2 = true ∧ p1 = false ∧ n1 = false ∧ n2 = false then .early
    else if p2 = false ∧ p1 = false ∧ n1 = false ∧ n2 = true then .late
    else .none := by
  simp [precompHint, and_assoc]

/-- The bits before an index, last first. -/
theorem getElem?_reverse_take {bits : List Bool} {i j : Nat} (hi : i ≤ bits.length) (hj : j < i) :
    (bits.take i).reverse[j]? = bits[i - 1 - j]? := by
  rw [List.getElem?_reverse (by simp; omega), List.length_take, min_eq_left hi,
    List.getElem?_take_of_lt (by omega)]

/-- The bits before an index as a function of integers that is 0 outside the string. -/
theorem getD_reverse_take {bits : List Bool} {m : Int → Bool} (inside : ∀ j : Nat, m j = bits.getD j false)
    (outside : ∀ j : Int, j < 0 → m j = false) {i : Nat} (hi : i ≤ bits.length) (j : Nat) :
    (bits.take i).reverse.getD j false = m (i - 1 - j) := by
  by_cases hj : j < i
  · rw [List.getD_eq_getElem?_getD, getElem?_reverse_take hi hj, ← List.getD_eq_getElem?_getD, ← inside]
    congr 1
    omega
  · rw [outside _ (by omega), List.getD_eq_default _ _ (by simp; omega)]

/-- Settles O42. -/
theorem transitionsCarryRunAndHint : Obligations.TransitionsCarryRunAndHint := by
  intro bits
  rw [transitions_eq_after]
  refine ⟨length_transitionsAfter [] bits, fun i one => ⟨_, _, transitionsAfter_getElem? [] one, ?_, ?_, ?_⟩⟩
  all_goals
    have inside : i < bits.length := (List.getElem?_eq_some_iff.mp one).1
    rw [List.append_nil]
  · intro m bit out
    rw [precompHint_eq, getD_reverse_take bit out inside.le, getD_reverse_take bit out inside.le,
      ← List.getD_eq_getElem?_getD, ← List.getD_eq_getElem?_getD, ← bit, ← bit]
    have before : (i : Int) - 1 - (1 : Nat) = i - 2 := by omega
    have last : (i : Int) - 1 - (0 : Nat) = i - 1 := by omega
    rw [before, last]
    rfl
  · rw [Option.map_eq_none_iff, sinceLast_eq_none_iff]
    constructor
    · intro zeros j below
      have here : bits[j]? = some bits[j] := List.getElem?_eq_getElem (below.trans inside)
      rw [here, zeros bits[j] (List.mem_reverse.mpr (List.mem_take_iff_getElem.mpr ⟨j, by omega, rfl⟩))]
    · intro zeros x member
      obtain ⟨j, below, rfl⟩ := List.mem_take_iff_getElem.mp (List.mem_reverse.mp member)
      have here := zeros j (by omega)
      rw [List.getElem?_eq_getElem (by omega)] at here
      exact Option.some_inj.mp here
  · intro n run
    obtain ⟨k, since, rfl⟩ := Option.map_eq_some_iff.mp run
    obtain ⟨found, zeros⟩ := sinceLast_spec since
    have short : k < i := by
      have := (List.getElem?_eq_some_iff.mp found).1
      simp only [List.length_reverse, List.length_take] at this
      omega
    rw [getElem?_reverse_take inside.le short] at found
    refine ⟨Nat.succ_pos k, short, ?_, fun j after below => ?_⟩
    · rw [show i - (k + 1) = i - 1 - k by omega]
      exact found
    · have zero := zeros (i - 1 - j) (by omega)
      rw [getElem?_reverse_take inside.le (by omega), show i - 1 - (i - 1 - j) = j by omega] at zero
      exact zero

/-! ### The payload (44_track_write.md R220, R224) -/

/-- No transition byte is 0. -/
theorem transitionByte_ne_zero (r : Option Nat × Precomp) : transitionByte r ≠ 0 := by
  intro zero
  have value : ((Config.transitionCode r.1 r.2).val + 1) % 256 = 0 := congrArg BitVec.toNat zero
  omega

/-- Settles O43. -/
theorem payloadIsFramedByDensity : Obligations.PayloadIsFramedByDensity := by
  refine ⟨fun s precomp hp ho bs payload => ⟨(s.tick.wrote bs).now, ?_⟩, fun s c precomp rest hp hf => ?_,
    fun s hp => step_judge_silence hp, fun w => ⟨fun b member => ?_, ?_⟩⟩
  · subst payload
    rw [step_payload hp]
    exact if_pos ((congrArg Control.isOpen s.tick_control).trans ho)
  · rw [step_ret hp hf, resume, State.afterWriteCommand]
    split <;> rfl
  · obtain ⟨r, -, rfl⟩ := List.mem_map.mp member
    exact transitionByte_ne_zero r
  · exact (List.length_map ..).trans (length_transitionsAfter [] w.bits)

end Sys2Proof.Machine
end

section
/-! SUPPORT. The Device Adapter: its attempts at a track, attach and seek, and the bytes it serves
(46_device_adapter.md). -/

namespace Sys2Proof.Machine

variable {s : State}

/-! ### Attempts (46_device_adapter.md R284, R285) -/

/-- A track that exists is selected by its command. -/
theorem State.startSelectTrack_of_commands {n : Nat} (inRange : n ≤ 83) (hs : s.st.commands = true) :
    s.startSelectTrack n = .next (s.goto (.pause (encodeTrack n))) := by
  have range : ¬ (s.st.commands = true ∧ Config.trackMax < n) := fun h => Nat.not_lt.mpr inRange h.2
  exact (if_neg range).trans (if_pos hs)

/-- The first attempt is the track itself. -/
theorem State.startAttempt_first {track : Nat} (head : Nat) (inRange : track ≤ 83) (hs : s.st.commands = true) :
    s.startAttempt track head 1
      = .next ((s.push (.capture .select track head 1)).goto (.pause (encodeTrack track))) :=
  State.startSelectTrack_of_commands (s := s.push _) inRange hs

theorem calTrack_spec {n : Nat} (h : n ≤ 83) :
    calTrack n ≤ 83 ∧ (calTrack n = n + 30 ∨ n = calTrack n + 30) := by
  by_cases room : n + 30 ≤ 83
  · rw [show calTrack n = n + 30 from if_pos room]
    omega
  · rw [show calTrack n = n - 30 from if_neg room]
    omega

/-- A later attempt begins with the calibration seek. -/
theorem State.startAttempt_again {track attempt : Nat} (head : Nat) (inRange : track ≤ 83) (hs : s.st.commands = true)
    (later : 1 < attempt) :
    s.startAttempt track head attempt = .next ((s.push (.capture .calOut track head attempt)).goto
      (.pause (encodeTrack (calTrack track)))) :=
  (if_pos later).trans (State.startSelectTrack_of_commands (s := s.push _) (calTrack_spec inRange).1 hs)

/-- A stored track lets a seek go on with the next head. -/
theorem State.captureDone_seek {t h : Nat} {rest : List Frame} (hf : s.frames = .seekHead t h :: rest)
    (track head : Nat) (trk : Track) :
    s.captureDone track head trk = { s with
      frames := rest, phase := .seek t (h + 1)
      ad := { s.ad with cache := cacheSet s.ad.cache { track := track, head := head, trk := trk } } } := by
  simp only [State.captureDone, State.setAd, hf]
  rfl

/-- A stored track lets `readByte` serve its byte. -/
theorem State.captureDone_serve {h offset : Nat} {rest : List Frame} (hf : s.frames = .serve h offset :: rest)
    (track head : Nat) (trk : Track) :
    s.captureDone track head trk = { s with
      frames := rest, phase := .idle
      ad := { s.ad with cache := cacheSet s.ad.cache { track := track, head := head, trk := trk } }
      out := .byte (s.ad.sel.serve s.par.serveErrLimit trk offset) } := by
  simp only [State.captureDone, State.setAd, hf]
  rfl

/-- A head of a seek whose track is not cached is captured. -/
theorem State.seekStep_missing {track head : Nat} (below : head < 2)
    (missing : cacheGet s.ad.cache track head = none) :
    s.seekStep track head = (s.push (.seekHead track head)).startAttempt track head 1 :=
  (if_neg (Nat.not_le.mpr below)).trans (by rw [missing])

theorem State.seekStep_cached {track head : Nat} {trk : Track} (below : head < 2)
    (cached : cacheGet s.ad.cache track head = some trk) :
    s.seekStep track head = .next (s.goto (.seek track (head + 1))) :=
  (if_neg (Nat.not_le.mpr below)).trans (by rw [cached])

theorem State.seekStep_over {track head : Nat} (last : 2 ≤ head) :
    s.seekStep track head = .next (s.goto .idle) := if_pos last

/-- A scan that a capture waits for stores its track. -/
theorem State.endScan_waited {track head : Nat} {rest : List Frame}
    (hf : s.frames = .captureDecode track head :: rest) :
    s.endScan = ((s.setDec s.dec.finish).pop rest).captureDone track head s.dec.finish.trk := by
  simp only [State.endScan, State.setDec_fields, hf]

/-- An attempt whose select, surface or read has failed. -/
theorem State.afterCapture_failed {k : CapStep} {track head attempt : Nat} {c : Code}
    (waits : k = .select ∨ k = .surface ∨ k = .read) (failed : c ≠ .ok) :
    s.afterCapture k track head attempt c = s.attemptFailed track head attempt := by
  rcases waits with rfl | rfl | rfl <;> exact if_neg failed

theorem State.attemptFailed_again {track head attempt : Nat} (inRange : track ≤ 83) (hs : s.st.commands = true)
    (first : 1 ≤ attempt) (more : attempt < 3) :
    s.attemptFailed track head attempt = .next ((s.push (.capture .calOut track head (attempt + 1))).goto
      (.pause (encodeTrack (calTrack track)))) :=
  (if_pos more).trans (State.startAttempt_again head inRange hs (by omega))

theorem State.attemptFailed_last (track head : Nat) : s.attemptFailed track head 3
    = .next (s.captureDone track head (Track.fill (if s.isHDMode then 18 else 9) 0 [])) :=
  if_neg (by decide)

/-- Settles O51. -/
theorem failedTrackReadsCalibrateAndRetry : Obligations.FailedTrackReadsCalibrateAndRetry := by
  refine ⟨fun n => calTrack_spec, fun s track head hp => ⟨fun below inRange hs none => ?_, fun trk below some => ?_,
    fun last => ?_⟩, fun s head offset rest hp hops attached inRange hs none => ?_,
    fun s c k track head attempt rest hp inRange hs hf => ⟨fun waits failed => ⟨fun first more => ?_,
      fun third filler fills ad stored => ⟨fun t h rest' waiting => ?_, fun h offset rest' waiting => ?_⟩⟩,
      fun out => ?_, fun back => ?_, fun select ok side => ?_, fun surface ok st => ?_, fun read ok bits => ?_⟩,
    fun s track head rest hp ended hf ad stored => ⟨fun t h rest' waiting => ?_,
      fun h offset rest' waiting => ?_⟩⟩
  · rw [step_seek hp]
    exact (State.seekStep_missing (s := s.tick) below none).trans
      (State.startAttempt_first (s := s.tick.push _) head inRange hs)
  · exact (step_seek hp).trans (State.seekStep_cached below some)
  · exact (step_seek hp).trans (State.seekStep_over last)
  · rw [step_start hp hops]
    refine (if_pos attached).trans ?_
    simp only [State.tick_fields, none]
    exact State.startAttempt_first head inRange hs
  · rw [step_ret hp hf, resume, State.afterCapture_failed waits failed]
    exact State.attemptFailed_again inRange hs first more
  · subst third fills stored waiting
    rw [step_ret hp hf, resume, State.afterCapture_failed waits failed, State.attemptFailed_last,
      State.captureDone_seek rfl]
    rfl
  · subst third fills stored waiting
    rw [step_ret hp hf, resume, State.afterCapture_failed waits failed, State.attemptFailed_last,
      State.captureDone_serve rfl]
    rfl
  · subst out
    rw [step_ret hp hf]
    exact State.startSelectTrack_of_commands (s := State.push _ _) inRange hs
  · subst back
    rw [step_ret hp hf]
    exact State.startSelectTrack_of_commands (s := State.push _ _) inRange hs
  · subst select
    rw [step_ret hp hf]
    refine (if_pos ok).trans ?_
    obtain rfl | rfl : head = 0 ∨ head = 1 := by omega
    · exact if_pos hs
    · exact if_pos hs
  · subst surface
    rw [step_ret hp hf]
    refine (if_pos ok).trans (if_pos ?_)
    simpa using st
  · subst read
    rw [step_ret hp hf]
    exact (if_pos ok).trans (if_neg (Nat.not_lt.mpr bits))
  · subst stored waiting
    rw [step_scan_over hp ended, State.endScan_waited (s := s.tick) hf, State.captureDone_seek rfl]
    rfl
  · subst stored waiting
    rw [step_scan_over hp ended, State.endScan_waited (s := s.tick) hf, State.captureDone_serve rfl]
    rfl

/-! ### The byte served (46_device_adapter.md R288, R289) -/

/-- A step that stays in its phase only updates the other fields. -/
theorem State.goto_same {p : Phase} (h : s.phase = p) : s.goto p = s := by
  subst h
  rfl

/-- The lookup and the error limit decide between the stored byte and the pattern. -/
theorem Selection.serve_eq (sel : Selection) (limit : Half) (trk : Track) (offset : Nat) :
    sel.serve limit trk offset =
      if sel.sector = 0 then sel.fillByte offset
      else match trk.get (sel.sector - 1) with
        | none => sel.fillByte offset
        | some e =>
          if e.errorCount = 0xFFFF ∨ limit.toNat < e.errorCount.toNat ∨ e.bytes.length ≤ offset then
            sel.fillByte offset
          else e.bytes.getD offset 0 := by
  by_cases numbered : sel.sector = 0
  · simp only [Selection.serve, Selection.entry, if_pos numbered]
  · simp only [Selection.serve, Selection.entry, if_neg numbered]
    cases trk.get (sel.sector - 1) with
    | none => rfl
    | some e =>
      change _ = if e.errorCount = Config.errSentinel ∨ limit.toNat < e.errorCount.toNat
        ∨ e.bytes.length ≤ offset then sel.fillByte offset else e.bytes.getD offset 0
      by_cases filler : e.errorCount = Config.errSentinel
      · simp [filler]
      by_cases many : limit < e.errorCount
      · simp [filler, many, BitVec.lt_def.mp many]
      by_cases past : e.bytes.length ≤ offset
      · simp [filler, many, past]
      · have few : ¬ limit.toNat < e.errorCount.toNat := mt BitVec.lt_def.mpr many
        simp [filler, many, few, past, Nat.lt_of_not_le past]

theorem State.serveByte_of_idle (hp : s.phase = .idle) (offset : Nat) (trk : Track) :
    s.serveByte offset trk = s.setOut (.byte (s.ad.sel.serve s.par.serveErrLimit trk offset)) :=
  State.goto_same hp

/-- Settles O52. -/
theorem servedByteIsDataOrThePattern : Obligations.ServedByteIsDataOrThePattern := by
  intro s head offset rest trk hp hops attached cached fill fills
  subst fills
  rw [step_start hp hops]
  refine (if_pos attached).trans ?_
  simp only [State.tick_fields, cached]
  refine congrArg Host.Outcome.next ((State.serveByte_of_idle (s := { s.tick with ops := rest }) hp offset trk).trans ?_)
  exact congrArg (fun b => { s.tick with ops := rest, out := .byte b })
    (Selection.serve_eq s.ad.sel s.par.serveErrLimit trk offset)

/-! ### Attach, detach, seek and the read-only interface (46_device_adapter.md R281 to R283, R290, R291) -/

theorem State.onDevice_attached (attached : s.ad.attached = true) (a : Answer) : s.onDevice a = a :=
  if_pos attached

theorem State.onDevice_detached (empty : s.ad.attached = false) (a : Answer) :
    s.onDevice a = .refused .notAttached := if_neg (by simp [empty])

/-- An operation of an attached device that ends at its call. -/
theorem step_start_done {o : Op} {rest : List Op} {t : State} (hp : s.phase = .idle) (ho : s.ops = o :: rest)
    (attached : s.ad.attached = true) (ht : t.phase = .idle)
    (call : startOp o { s.tick with ops := rest } = State.onDevice { s.tick with ops := rest } (.next (t.goto .idle))) :
    step s = .next t := by
  rw [step_start hp ho, call, State.goto_same ht]
  exact State.onDevice_attached attached _

/-- `attach` on an empty slot in `Closed`. -/
theorem State.startAttach_empty (empty : s.ad.attached = false) (closed : s.st = .closed)
    (path : String) (flow reset : Bool) :
    s.startAttach path flow reset = (s.createSession.push .attachOpen).startOpenPort path flow reset :=
  (if_neg (by simp [empty])).trans (if_neg (by simp [closed]))

theorem State.startOpenPort_closed (closed : s.st = .closed) (path : String) (flow reset : Bool) :
    s.startOpenPort path flow reset
      = .next { s with
          hs := { s.hs with path := path, ctsFlow := flow, triggerReset := reset }, phase := .hs .open } :=
  if_pos closed

/-- The operations of a device that is in the slot. -/
theorem startOp_detached {o : Op} (empty : s.ad.attached = false)
    (device : o = .detach ∨ (∃ track, o = .seek track) ∨ (∃ a b c d e, o = .setSector a b c d e)
      ∨ (∃ head offset, o = .readByte head offset) ∨ o = .writeByte ∨ o = .writeback
      ∨ o = .formatSupported ∨ o = .writeprot ∨ o = .diskFlags ∨ o = .sideFlags) :
    startOp o s = .refused .notAttached := by
  rcases device with rfl | ⟨_, rfl⟩ | ⟨_, _, _, _, _, rfl⟩ | ⟨_, _, rfl⟩ | rfl | rfl | rfl | rfl | rfl | rfl <;>
    exact State.onDevice_detached empty _

/-- A seek to the current track with both heads cached passes over them. -/
theorem steps_seek_cached {a b : Track} {rest : List Op} (hp : s.phase = .idle)
    (hops : s.ops = .seek s.ad.curTrack :: rest) (attached : s.ad.attached = true) (hq : s.Quiet)
    (upper : cacheGet s.ad.cache s.ad.curTrack 0 = some a)
    (lower : cacheGet s.ad.cache s.ad.curTrack 1 = some b) :
    steps 4 s = .next { s with ops := rest, cur := Move.quiet } := by
  have call : step s = .next { s with ops := rest, cur := Move.quiet, phase := .seek s.ad.curTrack 0 } := by
    rw [step_start hp hops, State.tick_quiet hq]
    refine (State.onDevice_attached (s := { s with ops := rest, cur := Move.quiet }) attached _).trans ?_
    rw [show s.ad.moveTo s.ad.curTrack = s.ad from if_pos rfl]
    rfl
  have first : step { s with ops := rest, cur := Move.quiet, phase := .seek s.ad.curTrack 0 }
      = .next { s with ops := rest, cur := Move.quiet, phase := .seek s.ad.curTrack 1 } := by
    rw [step_seek rfl, State.tick_quiet (s := { s with ops := rest, cur := Move.quiet, phase := _ }) hq]
    exact State.seekStep_cached (by decide) upper
  have second : step { s with ops := rest, cur := Move.quiet, phase := .seek s.ad.curTrack 1 }
      = .next { s with ops := rest, cur := Move.quiet, phase := .seek s.ad.curTrack 2 } := by
    rw [step_seek rfl, State.tick_quiet (s := { s with ops := rest, cur := Move.quiet, phase := _ }) hq]
    exact State.seekStep_cached (by decide) lower
  have last : step { s with ops := rest, cur := Move.quiet, phase := .seek s.ad.curTrack 2 }
      = .next { s with ops := rest, cur := Move.quiet } := by
    rw [step_seek rfl, State.tick_quiet (s := { s with ops := rest, cur := Move.quiet, phase := _ }) hq]
    exact (State.seekStep_over (Nat.le_refl 2)).trans
      (congrArg Host.Outcome.next (State.goto_same (s := { s with ops := rest, cur := Move.quiet }) hp))
  exact steps_of_step call (steps_of_step first (steps_of_step second (steps_of_step last rfl)))

/-- Settles O53. -/
theorem adapterAttachesSeeksAndAnswers : Obligations.AdapterAttachesSeeksAndAnswers := by
  refine ⟨fun s path flow reset rest hp hops empty closed d drawn => ?_,
    fun s c rest hp => ⟨fun hf => ?_, fun hf => step_ret hp hf⟩,
    fun s rest hp attached => ⟨fun hops => ⟨fun closed => ?_, fun commands => ?_⟩, fun track hops => ?_,
      fun side cylinder head sector size hops => ?_, fun hops => ?_, fun hops => ?_, fun hops => ?_,
      fun hops => ?_⟩,
    fun s o rest hp empty hops device => ?_,
    fun s a b rest hp hops attached hq upper lower => steps_seek_cached hp hops attached hq upper lower⟩
  · subst drawn
    rw [step_start hp hops]
    refine (State.startAttach_empty (s := { s.tick with ops := rest }) empty closed path flow reset).trans ?_
    rw [State.startOpenPort_closed (by rfl)]
    simp only [State.push, State.createSession, State.tick_fields, closed]
  · rw [step_ret hp hf]
    by_cases ok : c = .ok
    · rw [if_pos ok]
      exact congrArg Host.Outcome.next (if_pos ok)
    · rw [if_neg ok]
      exact congrArg Host.Outcome.next (if_neg ok)
  · rw [step_start hp hops]
    refine (State.onDevice_attached (s := { s.tick with ops := rest }) attached _).trans ?_
    simp only [State.startClosePort, State.setAd, State.tick_fields, closed]
    exact congrArg Host.Outcome.next (State.goto_same (p := .idle) hp)
  · rw [step_start hp hops]
    refine (State.onDevice_attached (s := { s.tick with ops := rest }) attached _).trans ?_
    exact State.startClosePort_of_commands (s := State.setAd { s.tick with ops := rest } _) commands
  · rw [step_start hp hops]
    exact State.onDevice_attached (s := { s.tick with ops := rest }) attached _
  · exact step_start_done hp hops attached hp rfl
  · rcases hops with hops | hops <;> exact step_start_done hp hops attached hp rfl
  · exact step_start_done hp hops attached hp rfl
  · exact step_start_done hp hops attached hp rfl
  · rcases hops with hops | hops <;> exact step_start_done hp hops attached hp rfl
  · rw [step_start hp hops]
    exact startOp_detached (s := { s.tick with ops := rest }) empty device

end Sys2Proof.Machine
end
